-- ==== Sys2Proof/Word.lean ====
section
/-!
DEFINITION. The word type of the block. Everything the block moves is one byte (spec/20_memory.md R61, R62);
bit 0 is the least significant bit (spec/00_scope.md R7).
-/
namespace Sys2Proof

/-- An unsigned byte, 0 to 255 (R7). Its addition is the `+8` of R8. -/
abbrev Byte := BitVec 8

end Sys2Proof
end

