-- ==== Sys2Proof/Config.lean ====
section
/-!
DEFINITION. The parameters of spec/00_scope.md R6 with their defaults, the closed enumerations they range over, the record
of the parameters the spec leaves open (`Params`), and the free values: opaque constants, about which nothing can be proved,
wherever the spec says `any`.
-/
namespace Sys2Proof

/-- The six operations of the dispatcher (R5, R33). A closed enumeration (R94). -/
inductive Op where
  | ping | read | write | regWrite | action | reset
deriving DecidableEq, Repr, Inhabited

/-- Line direction (R30). -/
inductive Dir where
  | transmit | receive
deriving DecidableEq, Repr, Inhabited

/-- The six results of a call (R29, R201). -/
inductive Result where
  | success | frameNotFound | frameMalformed | idMismatch | lengthMismatch | checksumMismatch
deriving DecidableEq, Repr, Inhabited

namespace Config

/-- MARKER (R6). -/
def marker : Byte := 0xFF
/-- MARKER_COUNT: the markers that open every packet (R6). -/
def markerCount : Nat := 2
/-- BROADCAST_ID (R6). -/
def broadcastId : Byte := 0xFE
/-- ID_MAX_UNICAST (R6). -/
def idMaxUnicast : Nat := 253
/-- LEN_OVERHEAD (R6). -/
def lenOverhead : Nat := 2
/-- ACC_WIDTH, in bits (R6, D5). -/
abbrev accWidth : Nat := 8
/-- MAX_PARAM (R6, D10). -/
def maxParam : Nat := 253
/-- The control-table addresses of this protocol generation are 0 to this one (R6); opaque to the block (R36). -/
def addressMax : Nat := 49

/-- SCAN_BOUND, counted in polls: the default of the open parameter (R6, D15). -/
def scanBound : Nat := 20
/-- INSTR_PING: the default of the open parameter (R6). PRESUMED: the six codes are general knowledge (D3, log 5). -/
def instrPing : Byte := 0x01
/-- INSTR_READ (R6, D3). -/
def instrRead : Byte := 0x02
/-- INSTR_WRITE (R6, D3). -/
def instrWrite : Byte := 0x03
/-- INSTR_REG_WRITE (R6, D3). -/
def instrRegWrite : Byte := 0x04
/-- INSTR_ACTION (R6, D3). -/
def instrAction : Byte := 0x05
/-- INSTR_RESET (R6, D3). -/
def instrReset : Byte := 0x06

/-- The numbers of the results (R6, R201, D4). -/
def resultCode : Result → BitVec 3
  | .success => 0
  | .frameNotFound => 1
  | .frameMalformed => 2
  | .idMismatch => 3
  | .lengthMismatch => 4
  | .checksumMismatch => 5

/-- DESIGN CHOICE: the most transport operations one `Machine.step` performs, SCAN_BOUND polls of the scan apart. A call
makes at most 1 `SetDir`, 259 sends, 1 last `IsBusy`, 1 `SetDir`, the polls of the scan and 258 polls more (R80, R241),
and its return is one tick more (log 1). -/
def ticksBesideScan : Nat := 521

/-- Free value: the n-th byte drawn where the spec says `any` (R9, D8, D13, D14). -/
opaque freeByte : Nat → Byte
/-- Free value: the n-th bit drawn where the environment answers a yes or no (R54, R55, D17). -/
opaque freeBit : Nat → Bool
/-- Free value: a count, which a reset brings into the range of SCAN_CNT or PIDX (R24, R25, R41). -/
opaque freeCount : Nat → Nat
/-- Free value: L_OP after a reset (R41). -/
opaque freeOp : Nat → Op
/-- Free value: DIR after a reset (R41). -/
opaque freeDir : Nat → Dir
/-- Free value: RESULT after a reset (R41). -/
opaque freeResult : Nat → Result
/-- Free value: the bytes of the host's buffers and registers before the host has filled them (R41, R231). -/
opaque freeHostByte : Nat → Byte

end Config

/-- The parameters the spec leaves OPEN, which a model takes as an argument (spec/92_eei_decisions.md, R6, D3, D15). The
machine takes them from the field `cfg` of its state, which no step writes (log 27). -/
structure Params where
  /-- SCAN_BOUND. -/
  scanBound : Nat
  /-- INSTR_PING. -/
  ping : Byte
  /-- INSTR_READ. -/
  read : Byte
  /-- INSTR_WRITE. -/
  write : Byte
  /-- INSTR_REG_WRITE. -/
  regWrite : Byte
  /-- INSTR_ACTION. -/
  action : Byte
  /-- INSTR_RESET. -/
  reset : Byte
deriving DecidableEq, Repr

/-- The defaults (R6). -/
def Config.params : Params where
  scanBound := Config.scanBound
  ping := Config.instrPing
  read := Config.instrRead
  write := Config.instrWrite
  regWrite := Config.instrRegWrite
  action := Config.instrAction
  reset := Config.instrReset

/-- The instruction byte of an operation (R87). -/
def Params.code (c : Params) : Op → Byte
  | .ping => c.ping
  | .read => c.read
  | .write => c.write
  | .regWrite => c.regWrite
  | .action => c.action
  | .reset => c.reset

/-- The six instruction bytes. -/
def Params.codes (c : Params) : List Byte := [c.ping, c.read, c.write, c.regWrite, c.action, c.reset]

/-- What the spec asks of the open parameters: SCAN_BOUND at least 1, the six codes pairwise distinct (D15, R87). -/
def Params.legal (c : Params) : Bool := decide (1 ≤ c.scanBound) && decide c.codes.Nodup

end Sys2Proof
end

