-- ==== Sys2Proof/Syntax.lean ====
section
/-!
DEFINITION. The syntax: one constructor for each row of spec/opcode_table.json. The six CMD rows are the calls the
host may present (spec/30_encoding.md R86, R95); the STS row is the status packet the block receives (R82).
-/
namespace Sys2Proof

/-- An instruction: a call of the host, or a status packet on the line. -/
inductive Instr where
  /-- PING: `Ping(dev)`, R161. -/
  | ping (id : Byte)
  /-- READ: `Read(dev, address, length)`, R162. -/
  | read (id address length : Byte)
  /-- WRITE: `Write(dev, address, buffer)`, R163. -/
  | write (id address : Byte) (buffer : List Byte)
  /-- REGWRITE: `RegisterWrite(dev, address, buffer)`, R164. -/
  | regWrite (id address : Byte) (buffer : List Byte)
  /-- ACTION: `Action(dev)`, R165. -/
  | action (id : Byte)
  /-- RESET: `Reset(dev)`, R166. -/
  | reset (id : Byte)
  /-- STATUS: a status packet as it is received, whatever its bytes (R82, R93 d). -/
  | status (id len err : Byte) (params : List Byte) (chk : Byte)
deriving DecidableEq, Repr

end Sys2Proof
end

