-- ==== Sys2Proof/WellFormed.lean ====
section
/-!
DEFINITION. Which instructions are well formed: the legal values of spec/10_state.md R33 for a call, and the length
rule of spec/30_encoding.md R82 for a status packet, in which no byte value is illegal (R93 d).
-/
namespace Sys2Proof

/-- `dev.id` 0 to 253 for one device, 0xFE for broadcast; 255 is outside the data model (R31, R89, D11). -/
def idLegal (id : Byte) : Bool :=
  decide (id.toNat ≤ Config.idMaxUnicast) || id == Config.broadcastId

/-- `length` of a Read: 0 to MAX_PARAM (R33, D10). -/
def replyLenLegal (length : Byte) : Bool :=
  decide (length.toNat ≤ Config.maxParam)

/-- `N` of a Write or RegisterWrite: the address and the data together are at most MAX_PARAM bytes (R33, D10). -/
def bufferLegal (buffer : List Byte) : Bool :=
  decide (buffer.length + 1 ≤ Config.maxParam)

/-- The legal values of an instruction's operands. -/
def Instr.wellFormed : Instr → Bool
  | .ping id => idLegal id
  | .read id _ length => idLegal id && replyLenLegal length
  | .write id _ buffer => idLegal id && bufferLegal buffer
  | .regWrite id _ buffer => idLegal id && bufferLegal buffer
  | .action id => idLegal id
  | .reset id => idLegal id
  | .status _ len _ params _ => decide (params.length = len.toNat - Config.lenOverhead)

end Sys2Proof
end

