-- ==== Sys2Proof/Decode.lean ====
section
/-!
DEFINITION. The decoder, total on any bytes and rejecting by name, and the encoder, both from spec/30_encoding.md.
A command is decoded from its header and its parameters (R81, R86); its checksum byte is no operand, the block computes
it (R84, R114), and stands in no match (R88). A status packet is decoded whole (R82). The two formats are matched apart,
as R88 says: CMD rows describe what the block is told to send, the STS row what it polls.
-/
namespace Sys2Proof

/-- The two packet formats (R80). -/
inductive Format where
  | cmd | sts
deriving DecidableEq, Repr

/-- Why bytes, or a call record, are no instruction. -/
inductive DecodeError where
  /-- The bytes do not open with the two markers (R81, R82). -/
  | noMarker
  /-- Fewer bytes than the length byte says. -/
  | truncated
  /-- The instruction byte is none of the six (R94). -/
  | unknownOperation (op : Byte)
  /-- The length byte is not the one the instruction has (R83, R87). -/
  | badLength
  /-- `dev.id` is 255 (R31). -/
  | idReserved
  /-- `length` of a Read is 254 or 255 (R33). -/
  | replyTooLong
  /-- `N` of a Write or RegisterWrite is above 252 (R33). -/
  | bufferTooLong
deriving DecidableEq, Repr

/-- The operation an instruction byte selects, if it is one of the six (R87, R94). -/
def opOf (c : Params) (b : Byte) : Option Op :=
  if b = c.ping then some .ping
  else if b = c.read then some .read
  else if b = c.write then some .write
  else if b = c.regWrite then some .regWrite
  else if b = c.action then some .action
  else if b = c.reset then some .reset
  else none

/-- The call that a record of operation byte and operands presents (R33, R94). -/
def decodeCall (c : Params) (op id address length : Byte) (buffer : List Byte) : Except DecodeError Instr :=
  match opOf c op with
  | none => .error (.unknownOperation op)
  | some o =>
    if idLegal id = false then .error .idReserved
    else
      match o with
      | .ping => .ok (.ping id)
      | .read => if replyLenLegal length then .ok (.read id address length) else .error .replyTooLong
      | .write => if bufferLegal buffer then .ok (.write id address buffer) else .error .bufferTooLong
      | .regWrite => if bufferLegal buffer then .ok (.regWrite id address buffer) else .error .bufferTooLong
      | .action => .ok (.action id)
      | .reset => .ok (.reset id)

/-- The call whose parameter bytes stand in wire order (R86). -/
def decodeParams (c : Params) (op id : Byte) (params : List Byte) : Except DecodeError Instr :=
  match opOf c op, params with
  | none, _ => .error (.unknownOperation op)
  | some .ping, [] => decodeCall c op id 0 0 []
  | some .read, [address, length] => decodeCall c op id address length []
  | some .write, address :: buffer => decodeCall c op id address 0 buffer
  | some .regWrite, address :: buffer => decodeCall c op id address 0 buffer
  | some .action, [] => decodeCall c op id 0 0 []
  | some .reset, [] => decodeCall c op id 0 0 []
  | some _, _ => .error .badLength

/-- A command packet's header and parameters, and the bytes after them (R81). -/
def decodeCmd (c : Params) : List Byte → Except DecodeError (Instr × List Byte)
  | m0 :: m1 :: id :: len :: op :: rest =>
    if m0 ≠ Config.marker ∨ m1 ≠ Config.marker then .error .noMarker
    else if opOf c op = none then .error (.unknownOperation op)
    else if len.toNat < Config.lenOverhead then .error .badLength
    else if (rest.take (len.toNat - Config.lenOverhead)).length < len.toNat - Config.lenOverhead then .error .truncated
    else
      (decodeParams c op id (rest.take (len.toNat - Config.lenOverhead))).map
        fun i => (i, rest.drop (len.toNat - Config.lenOverhead))
  | _ => .error .truncated

/-- A status packet and the bytes after it (R82). No byte of it is illegal (R93 d); a length byte of 0 or 1, which no
sender may send (R83), leaves no parameters. -/
def decodeSts : List Byte → Except DecodeError (Instr × List Byte)
  | m0 :: m1 :: id :: len :: err :: rest =>
    if m0 ≠ Config.marker ∨ m1 ≠ Config.marker then .error .noMarker
    else
      match rest.drop (len.toNat - Config.lenOverhead) with
      | chk :: tail => .ok (.status id len err (rest.take (len.toNat - Config.lenOverhead)) chk, tail)
      | [] => .error .truncated
  | _ => .error .truncated

/-- The decoder: an instruction of the given format under the given parameters, and the bytes after it. -/
def decode (c : Params) : Format → List Byte → Except DecodeError (Instr × List Byte)
  | .cmd, bytes => decodeCmd c bytes
  | .sts, bytes => decodeSts bytes

/-! ## The encoder -/

/-- The five bytes that open a packet of either format: the markers and three more (R6, R81, R82). -/
def header (id len fifth : Byte) : List Byte :=
  List.replicate Config.markerCount Config.marker ++ [id, len, fifth]

/-- The length byte of a packet with `n` parameters: `n + 2`, no more than 255 for `n` up to MAX_PARAM (R83). -/
def lengthByte (n : Nat) : Byte :=
  BitVec.ofNat 8 (n + Config.lenOverhead)

/-- The format of an instruction (R88). -/
def Instr.format : Instr → Format
  | .ping _ => .cmd
  | .read _ _ _ => .cmd
  | .write _ _ _ => .cmd
  | .regWrite _ _ _ => .cmd
  | .action _ => .cmd
  | .reset _ => .cmd
  | .status _ _ _ _ _ => .sts

/-- The bytes of an instruction: a command's header and parameters (R81, R86, R87), a status packet whole (R82). -/
def encode (c : Params) : Instr → List Byte
  | .ping id => header id (lengthByte 0) c.ping
  | .read id address length => header id (lengthByte 2) c.read ++ [address, length]
  | .write id address buffer =>
    header id (lengthByte (buffer.length + 1)) c.write ++ address :: buffer
  | .regWrite id address buffer =>
    header id (lengthByte (buffer.length + 1)) c.regWrite ++ address :: buffer
  | .action id => header id (lengthByte 0) c.action
  | .reset id => header id (lengthByte 0) c.reset
  | .status id len err params chk => header id len err ++ params ++ [chk]

/-! ## The opcode table -/

/-- One row of spec/opcode_table.json (R88). -/
structure Row where
  mnemonic : String
  format : Format
  pattern : BitVec 40
  mask : BitVec 40
deriving DecidableEq, Repr

/-- The rows of spec/opcode_table.json, which has the default instruction bytes. -/
def tableRows : List Row :=
  [ ⟨"PING", .cmd, 0xFFFF000201, 0xFFFF00FFFF⟩,
    ⟨"READ", .cmd, 0xFFFF000402, 0xFFFF00FFFF⟩,
    ⟨"WRITE", .cmd, 0xFFFF000003, 0xFFFF0000FF⟩,
    ⟨"REGWRITE", .cmd, 0xFFFF000004, 0xFFFF0000FF⟩,
    ⟨"ACTION", .cmd, 0xFFFF000205, 0xFFFF00FFFF⟩,
    ⟨"RESET", .cmd, 0xFFFF000206, 0xFFFF00FFFF⟩,
    ⟨"STATUS", .sts, 0xFFFF000000, 0xFFFF000000⟩ ]

/-- A header selects a row when it agrees with the row's pattern under the row's mask (R88). -/
def Row.selects (r : Row) (h : BitVec 40) : Bool :=
  h &&& r.mask == r.pattern

/-- The table's mnemonic of an instruction. -/
def Instr.mnemonic : Instr → String
  | .ping _ => "PING"
  | .read _ _ _ => "READ"
  | .write _ _ _ => "WRITE"
  | .regWrite _ _ _ => "REGWRITE"
  | .action _ => "ACTION"
  | .reset _ => "RESET"
  | .status _ _ _ _ _ => "STATUS"

/-- The first five bytes as a 40-bit number, first byte on the wire most significant (R88). -/
def headerWord : List Byte → BitVec 40
  | b0 :: b1 :: b2 :: b3 :: b4 :: _ => b0 ++ b1 ++ b2 ++ b3 ++ b4
  | _ => 0

/-- DESIGN CHOICE (log 18): the bytes of a table word of `nbits` bits, most significant byte first as R88 numbers
them, followed by zeros up to the longest packet, 259 bytes (R80). -/
def tableBytes (nbits w : Nat) : List Byte :=
  (List.range (nbits / 8)).map (fun k => BitVec.ofNat 8 (w >>> (8 * (nbits / 8 - 1 - k))))
    ++ List.replicate (259 - nbits / 8) 0

/-- DESIGN CHOICE (log 18): the rows WRITE and REGWRITE leave the length byte open (mask 0, R88), and it is no operand: the
block computes it (R83). A word in which it is below the row's smallest, 3 (R87), is laid out with that one, the packet of the
address alone (R86). -/
def shortestLength : List Byte → List Byte
  | m0 :: m1 :: id :: len :: op :: rest =>
    if len.toNat < 3 ∧ (op = Config.instrWrite ∨ op = Config.instrRegWrite) then
      m0 :: m1 :: id :: lengthByte 1 :: op :: rest
    else m0 :: m1 :: id :: len :: op :: rest
  | bytes => bytes

/-- The format a table word is read in: CMD when its header selects a CMD row, else STS (R88, log 18). -/
def formatOf (bytes : List Byte) : Format :=
  if tableRows.any fun r => decide (r.format = .cmd) && r.selects (headerWord bytes) then .cmd else .sts

/-- The instruction a table word stands for, under the default parameters, which are the table's. -/
def decodeTableWord (nbits w : Nat) : Option Instr :=
  match formatOf (tableBytes nbits w) with
  | .cmd =>
    match decode Config.params .cmd (shortestLength (tableBytes nbits w)) with
    | .ok (i, _) => some i
    | .error _ => none
  | .sts =>
    match decode Config.params .sts (tableBytes nbits w) with
    | .ok (i, _) => some i
    | .error _ => none

end Sys2Proof
end

