-- ==== Sys2Proof/Machine/State.lean ====
section
/-!
DEFINITION. The state of the framer (spec/10_state.md R20): the block's own latches, its phase, the host-owned
registers and buffers, the reset event, the trace, and the answers the transport has yet to give. The block has no memory
(R36), so no list of cells stands here; the two byte buffers are lists indexed from 0 (R34, R35).
-/
namespace Sys2Proof.Machine

/-- The sequencer phases, the block's program counter, each under its name in R27; `W_PARAM(i)` and `R_PARAM(i)` carry the
number of the parameter byte in the packet, counted from 0 (R27, R172). -/
inductive Phase where
  | idle
  | wDir | wMark0 | wMark1 | wId | wLen | wInstr | wParam (i : Nat) | wChk
  | rDrain | rDir | rScan | rMark2 | rId | rLen | rErr | rParam (i : Nat) | rChk
  | done
deriving DecidableEq, Repr, Inhabited

/-- The events of a trace (R10, R52): `Dir(T)` or `Dir(R)`, `Tx(b)`, `Busy(v)`, `Rx(b)`. -/
inductive Event where
  | dir (d : Dir)
  | tx (b : Byte)
  | busy (v : Bool)
  | rx (b : Byte)
deriving DecidableEq, Repr

/-- The state. -/
structure State where
  /-- The parameters the spec leaves open, the model's argument: no step writes them (R6, R38, log 27). -/
  cfg : Params
  /-- ACC, the checksum accumulator, ACC_WIDTH bits wide (R6, R21, R22). -/
  acc : BitVec Config.accWidth
  /-- ERR_STAGE, the error byte of the status packet being parsed (R23). -/
  errStage : Byte
  /-- SCAN_CNT, the polls of the current marker scan (R24). -/
  scanCnt : Nat
  /-- PIDX, the index of the byte being moved in the buffer of the current APPEND, or in RXBUF (R25, R113, R139). -/
  pidx : Nat
  /-- L_OP, latched operation (R26). -/
  lOp : Op
  /-- L_ID, latched `dev.id` (R26). -/
  lId : Byte
  /-- L_ADDR, latched address (R26). -/
  lAddr : Byte
  /-- L_LEN, latched length of a Read (R26). -/
  lLen : Byte
  /-- L_N, latched count of data bytes of a Write or RegisterWrite (R26). -/
  lN : Byte
  /-- L_EXPLEN, latched expected reply parameter count (R26, R168). -/
  lExpLen : Byte
  /-- The model's own: the data bytes of the accepted Write or RegisterWrite, with which TXBUF is compared to tell
  whether the host has changed it during the call (R34, log 10). -/
  lTx : List Byte
  /-- The model's own: the host has changed TXBUF since the Write or RegisterWrite was accepted, whether or not it has undone
  the change (R34, D13, log 10). A step sets it where it finds TXBUF changed; a state in which it is set and TXBUF is as it
  was stands for a change undone before the step. -/
  txTouched : Bool
  /-- PHASE (R27, R28). -/
  phase : Phase
  /-- RESULT (R29). -/
  result : Result
  /-- DIR, the line direction last commanded (R30). -/
  dir : Dir
  /-- `dev.id` of the device handle, the host's (R31). -/
  devId : Byte
  /-- `dev.err` of the device handle, the host's (R32). -/
  devErr : Byte
  /-- Call record: the operation selector, carried as the wire instruction byte (R33, R94). -/
  callOp : Byte
  /-- Call record: the control-table address (R33, R36). -/
  callAddr : Byte
  /-- Call record: the `length` operand of a Read (R33). -/
  callLen : Byte
  /-- Whether the host presents the call record now (R40, D1). -/
  presented : Bool
  /-- TXBUF, the host's buffer of data bytes; its length is `N` (R33, R34). -/
  txbuf : List Byte
  /-- RXBUF, the host's reply buffer; its length is its capacity (R33, R35). -/
  rxbuf : List Byte
  /-- The reset event is raised (R230, log 20). -/
  resetReq : Bool
  /-- The trace of the current call, or of the last one (R10, R52, log 24). -/
  trace : List Event
  /-- Environment: the answers the transport has ready to "can a byte be accepted now", first first (R54, log 2). -/
  sendAnswers : List Bool
  /-- Environment: the answers `IsBusy` has ready, first first (R55, log 2). -/
  busyAnswers : List Bool
  /-- Environment: the receiver's content, the bytes the next polls return, first first (R56, R58, log 2). -/
  rxAnswers : List Byte
  /-- The model's own: how many free values have been drawn (log 2). -/
  draws : Nat
deriving DecidableEq, Repr

/-- The machine never faults: the block has no trap (R200), its failures are results of a call (R201), its hangs are phases
that do not change (R116, R241). There is no constructor. -/
inductive Fault where
deriving DecidableEq, Repr

/-- Why a request is given no meaning (R9 `refuse`, R221). Refusing is safe: nothing is claimed of such a request. -/
inductive Refusal where
  /-- Raised by an arm of `exec` that has no meaning yet. Safe. -/
  | notModelled (mnemonic : String)
  /-- Raised by every call presented while `PHASE` is not `IDLE` (R169, R215). Safe. -/
  | portBusy
  /-- Raised by `step` when the operation byte is none of the six (R94, R169, D2). Safe. -/
  | unknownOperation (op : Byte)
  /-- Raised by every call whose `dev.id` is 255 (R31, R169, D11). Safe. -/
  | idReserved
  /-- Raised by READ when `length` is above 253 (R169, D10). Safe. -/
  | replyTooLong
  /-- Raised by WRITE and REGWRITE when `N` is above 252 (R169, D10). Safe. -/
  | bufferTooLong
  /-- Raised by READ when RXBUF holds fewer than `length` bytes (R33, log 8). Safe. -/
  | replyBufferTooSmall
  /-- Raised by `step` when a presented record is no call for another reason of the decoder's; no record is (log 17). Safe. -/
  | malformedCall
  /-- Raised by `putValue` and `getValue` on an address of width 0 (R192, R193, D23). Safe. -/
  | widthUnsupported
  /-- Raised by `getValue` on the broadcast id (R193, D23). Safe. -/
  | broadcastHasNoValue
deriving DecidableEq, Repr

/-- The machine right after reset (R41, R230): `PHASE` is `IDLE`; every other register of the block is `any`, here a
free value of Config (log 3). The host's registers and buffers and the transport are not reset by the block; what they hold
before the first call is log 4: the default parameters, no call presented, `N` 0, an RXBUF of 253 bytes, free bytes elsewhere, no answer ready. -/
def State.reset : State where
  cfg := Config.params
  acc := Config.freeByte 0
  errStage := Config.freeByte 1
  scanCnt := Config.freeCount 0 % (Config.scanBound + 1)
  pidx := Config.freeCount 1 % (Config.maxParam + 1)
  lOp := Config.freeOp 0
  lId := Config.freeByte 2
  lAddr := Config.freeByte 3
  lLen := Config.freeByte 4
  lN := Config.freeByte 5
  lExpLen := Config.freeByte 6
  lTx := []
  txTouched := false
  phase := .idle
  result := Config.freeResult 0
  dir := Config.freeDir 0
  devId := Config.freeHostByte 0
  devErr := Config.freeHostByte 1
  callOp := Config.freeHostByte 2
  callAddr := Config.freeHostByte 3
  callLen := Config.freeHostByte 4
  presented := false
  txbuf := []
  rxbuf := (List.range Config.maxParam).map fun k => Config.freeHostByte (5 + k)
  resetReq := false
  trace := []
  sendAnswers := []
  busyAnswers := []
  rxAnswers := []
  draws := 7

end Sys2Proof.Machine
end

