-- ==== Sys2Proof/Machine/Flags.lean ====
section
/-!
DEFINITION. The arithmetic of spec/00_scope.md R8 and the checksum of spec/30_encoding.md R84. RESULT is the block's only
flag (R29); its codes stand in Config (R201).
-/
namespace Sys2Proof.Machine

/-- `not8(a)`, one's complement of a byte (R8). -/
def not8 (a : Byte) : Byte := ~~~a

/-- `sum8(list)`, the `+8` fold, 0 for the empty list (R8). -/
def sum8 : List Byte → Byte
  | [] => 0
  | b :: rest => b + sum8 rest

/-- The checksum of the bytes after the markers and before the checksum (R84). -/
def checksum (bytes : List Byte) : Byte := not8 (sum8 bytes)

/-- `lo8(v)` (R8). -/
def lo8 (v : Nat) : Byte := BitVec.ofNat 8 v

/-- `hi8(v)` (R8). -/
def hi8 (v : Nat) : Byte := BitVec.ofNat 8 (v / 256)

/-- `zext_N(v)` (R8). -/
def zext (n : Nat) (v : Byte) : BitVec n := v.zeroExtend n

/-- `sext_N(v)` (R8); no rule uses it. -/
def sext (n : Nat) (v : Byte) : BitVec n := v.signExtend n

end Sys2Proof.Machine
end

