-- ==== Sys2Proof/Machine/Operands.lean ====
section
/-!
DEFINITION. What an operation and its latched operands mean to the sequencer: the parameters of its command packet
(spec/30_encoding.md R86), whether a reply is read (spec/42_instructions.md R167) and how long it is (R168).
-/
namespace Sys2Proof.Machine

/-- `replyExpected(op, id)` (R167). -/
def replyExpected (op : Op) (id : Byte) : Bool :=
  match op with
  | .ping => true
  | .action => false
  | .read => id != Config.broadcastId
  | .write => id != Config.broadcastId
  | .regWrite => id != Config.broadcastId
  | .reset => id != Config.broadcastId

/-- `paramLen` of an operation with `n` data bytes (R86). -/
def paramLen (op : Op) (n : Nat) : Nat :=
  match op with
  | .ping => 0
  | .read => 2
  | .write => 1 + n
  | .regWrite => 1 + n
  | .action => 0
  | .reset => 0

/-- `paramLen` of the call in the latches. -/
def State.paramCount (s : State) : Nat := paramLen s.lOp s.lN.toNat

/-- `L_EXPLEN` as a number (R26, R168). -/
def State.expLen (s : State) : Nat := s.lExpLen.toNat

/-- Whether the operation sends the bytes of TXBUF: Write and RegisterWrite (R86). -/
def sendsData (op : Op) : Bool :=
  match op with
  | .ping => false
  | .read => false
  | .write => true
  | .regWrite => true
  | .action => false
  | .reset => false

/-- The index, in the buffer of its own APPEND, of the i-th parameter byte of a packet (R25, R113): a Write and a
RegisterWrite append the address and then the data (R163, R164), a Read appends both its parameters at once (R162). -/
def appendIndex (op : Op) (i : Nat) : Nat := if sendsData op then i - 1 else i

/-- What PIDX holds after the last of `n` parameter bytes (log 14): the length of the last APPEND's buffer; no APPEND, no
write of it. -/
def pidxAfter (op : Op) (n old : Nat) : Nat := if n = 0 then old else appendIndex op n

/-- The host has changed TXBUF since the call was accepted (R34, log 10). -/
def State.txChanged (s : State) : Bool := s.txTouched || decide (s.txbuf ≠ s.lTx)

/-- A data byte read from TXBUF when it is emitted: `TXBUF[PIDX]` while the host has left TXBUF alone since the call was
accepted, nothing the rules fix once it has not (R34, R70, D13, log 10). -/
def State.dataByte (s : State) : Option Byte :=
  if s.txChanged then none else s.txbuf[s.pidx]?

/-- The parameter byte of `W_PARAM(i)`, where the rules fix it (R27, R86, R113). -/
def State.knownParam (i : Nat) (s : State) : Option Byte :=
  match s.lOp, i with
  | .read, 0 => some s.lAddr
  | .read, 1 => some s.lLen
  | .write, 0 => some s.lAddr
  | .write, _ + 1 => s.dataByte
  | .regWrite, 0 => some s.lAddr
  | .regWrite, _ + 1 => s.dataByte
  | _, _ => none

/-- The parameter byte `W_PARAM(i)` emits: the one the rules fix, else `any` (R34). -/
def State.paramByte (i : Nat) (s : State) : Byte := (s.knownParam i).getD (Config.freeByte s.draws)

/-- A phase of the packet writer (R27). -/
def Phase.writes : Phase → Bool
  | .wDir | .wMark0 | .wMark1 | .wId | .wLen | .wInstr | .wParam _ | .wChk => true
  | _ => false

end Sys2Proof.Machine
end

