-- ==== Sys2Proof/Machine/Ops.lean ====
section
/-!
DEFINITION. The named operations every meaning is built from: the four transport operations (spec/20_memory.md R53 to
R56), `Emit` (R111) and `Take` (R131), the failure exit (spec/60_exceptions.md R207, the block's taking of an exception),
the success exit (R141) and the return of a call (R210), and the reset event (spec/70_reset_and_hazards.md R230).
-/
namespace Sys2Proof.Machine

/-! ## Plain updates -/

/-- `PHASE <- p` (R9). -/
def State.goto (p : Phase) (s : State) : State := { s with phase := p }

/-- An event is appended to the trace of the call (R52). -/
def State.log (e : Event) (s : State) : State := { s with trace := s.trace ++ [e] }

/-- `ACC <- v` (R21). -/
def State.setAcc (v : Byte) (s : State) : State := { s with acc := v }

/-- `ACC <- ACC +8 b` (R21). -/
def State.addAcc (b : Byte) (s : State) : State := { s with acc := s.acc + b }

/-- `PIDX <- i` (R25). -/
def State.setPidx (i : Nat) (s : State) : State := { s with pidx := i }

/-- `SCAN_CNT <- n` (R24). -/
def State.setScanCnt (n : Nat) (s : State) : State := { s with scanCnt := n }

/-- `ERR_STAGE <- b` (R23). -/
def State.setErrStage (b : Byte) (s : State) : State := { s with errStage := b }

/-- `RXBUF[i] <- b` (R9, R35); outside the host's buffer there is no byte to write (log 9). -/
def State.putReply (i : Nat) (b : Byte) (s : State) : State := { s with rxbuf := s.rxbuf.set i b }

/-- The draw of `State.paramByte i`, when it took a free value (log 2). -/
def State.paramDrawn (i : Nat) (s : State) : State :=
  { s with draws := s.draws + if (s.knownParam i).isSome then 0 else 1 }

/-- TXBUF is looked at before the block goes on: a change the host has made while data of the call is still to be sent is
kept in mind (R34, R70, log 10). -/
def State.watched (s : State) : State :=
  { s with txTouched := s.txTouched || (sendsData s.lOp && s.phase.writes && s.txChanged) }

/-! ## The transport -/

/-- What one transport operation leads to: the block goes on, or it rests in its phase until the transport lets it
(R54, R55) or the host presents a call (R27 `IDLE`). -/
inductive Progress where
  | moves (s : State)
  | rests (s : State)
deriving DecidableEq, Repr

/-- `SetDir(d)` (R53): always issued, whatever `DIR` is. -/
def State.setDir (d : Dir) (s : State) : State := { s.log (.dir d) with dir := d }

/-- Whether the transport can accept a byte now (R54): its next answer, or a free bit. -/
def State.sendReady (s : State) : Bool :=
  match s.sendAnswers with
  | [] => Config.freeBit s.draws
  | a :: _ => a

/-- The transport has answered whether it can accept a byte. -/
def State.sendAsked (s : State) : State :=
  { s with sendAnswers := s.sendAnswers.tail, draws := s.draws + (1 - s.sendAnswers.length) }

/-- `SendByte(b)` followed by `k` (R54): when the transport can accept the byte, `Tx(b)` happens and the block goes on;
until then it stays in its phase and nothing happens. -/
def sendByte (b : Byte) (k : State → State) (s : State) : Progress :=
  if s.sendReady then .moves (k (s.sendAsked.log (.tx b))) else .rests s.sendAsked

/-- `Emit(b)` followed by `k` (R111). -/
def emit (b : Byte) (k : State → State) (s : State) : Progress :=
  sendByte b (fun t => k (t.addAcc b)) s

/-- The answer of `IsBusy()` (R55): the transport's next one, or a free bit. -/
def State.busyAnswer (s : State) : Bool :=
  match s.busyAnswers with
  | [] => Config.freeBit s.draws
  | a :: _ => a

/-- `IsBusy()` has been asked (R55): the event `Busy(v)`, no other effect. -/
def State.busyAsked (s : State) : State :=
  { s.log (.busy s.busyAnswer) with
    busyAnswers := s.busyAnswers.tail, draws := s.draws + (1 - s.busyAnswers.length) }

/-- The byte `RecvPoll()` returns (R56): the receiver's next one, or a free byte, which the block cannot tell apart. -/
def State.pollByte (s : State) : Byte :=
  match s.rxAnswers with
  | [] => Config.freeByte s.draws
  | b :: _ => b

/-- `RecvPoll()` has been done (R56): a byte is consumed, the event `Rx(b)`. -/
def State.polled (s : State) : State :=
  { s.log (.rx s.pollByte) with
    rxAnswers := s.rxAnswers.tail, draws := s.draws + (1 - s.rxAnswers.length) }

/-- `Take()` (R131): a poll whose byte is added to ACC before any check is made on it. -/
def State.taken (s : State) : State := s.polled.addAcc s.pollByte

/-! ## The exits of a call -/

/-- `n` free bytes, from the n-th draw of `d` on. -/
def freeBytes (d n : Nat) : List Byte := (List.range n).map fun k => Config.freeByte (d + k)

/-- `RXBUF[0 .. expLen-1]` is `any` (R35, D14): those of its bytes that exist become free bytes, the others stay. -/
def State.spoilReply (s : State) : State :=
  let n := min s.expLen s.rxbuf.length
  { s with rxbuf := freeBytes s.draws n ++ s.rxbuf.drop n, draws := s.draws + n }

/-- `fail E` (R207): `RESULT <- E`, `PHASE <- DONE`, nothing saved, no further transport operation; `dev.err` keeps its
value (R32) and the reply buffer is `any` (R35). The block's taking of an exception (R200). -/
def State.fail (e : Result) (s : State) : State :=
  { s.spoilReply with result := e, phase := .done }

/-- The call has succeeded without a reply (R170): `RESULT <- Success`, `PHASE <- DONE`. -/
def State.succeed (s : State) : State := { s with result := .success, phase := .done }

/-- READSTATUS step 10 (R141): `dev.err <- ERR_STAGE`, the only write of it, and `Success`. -/
def State.accept (s : State) : State := { s with devErr := s.errStage, result := .success, phase := .done }

/-- The return of the call (R210): RESULT is delivered and the block is idle again (R40). -/
def State.deliver (s : State) : State := s.goto .idle

/-! ## The reset event -/

/-- The reset event (R230, R41): `PHASE <- IDLE`, every other register of the block is `any`, no transport operation is
performed, what the host and the transport own is left alone. A call in progress is abandoned without a result. -/
def State.hardReset (s : State) : State :=
  { s with
    acc := Config.freeByte s.draws
    errStage := Config.freeByte (s.draws + 1)
    scanCnt := Config.freeCount s.draws % (s.cfg.scanBound + 1)
    pidx := Config.freeCount (s.draws + 1) % (Config.maxParam + 1)
    lOp := Config.freeOp s.draws
    lId := Config.freeByte (s.draws + 2)
    lAddr := Config.freeByte (s.draws + 3)
    lLen := Config.freeByte (s.draws + 4)
    lN := Config.freeByte (s.draws + 5)
    lExpLen := Config.freeByte (s.draws + 6)
    phase := .idle
    result := Config.freeResult s.draws
    dir := Config.freeDir s.draws
    resetReq := false
    draws := s.draws + 7 }

end Sys2Proof.Machine
end

