-- ==== Sys2Proof/Machine/Sequencer.lean ====
section
/-!
DEFINITION. The sequencer: one phase, one transport operation (spec/10_state.md R27, R28; the transitions are
spec/42_instructions.md R172). The W_ phases are the packet writer's BEGIN, APPEND and END (spec/40_packet_writer.md R112
to R114), the R_ phases the parser's READSTATUS (spec/41_packet_reader.md R130).
-/
namespace Sys2Proof.Machine

/-- From `W_INSTR` (R172): to the first parameter, where an APPEND starts and sets PIDX to 0 (R25), or to the checksum. -/
def State.afterInstr (s : State) : State :=
  if 0 < s.paramCount then (s.setPidx 0).goto (.wParam 0) else s.goto .wChk

/-- From `W_PARAM(i)` (R172): to the next parameter or to the checksum. PIDX goes on within the buffer of its APPEND; behind
the address of a Write or RegisterWrite the APPEND of the data starts and sets it to 0 (R25, R163), also when there is no
data. -/
def State.afterParam (i : Nat) (s : State) : State :=
  (s.setPidx (appendIndex s.lOp (i + 1))).goto (if i + 1 < s.paramCount then .wParam (i + 1) else .wChk)

/-- From `W_CHK` (R167, R172): to READSTATUS when a reply is expected, else the call is over with `Success` (R170). -/
def State.afterChk (s : State) : State :=
  if replyExpected s.lOp s.lId then s.goto .rDrain else s.succeed

/-- READSTATUS step 3 (R134): one poll of the marker scan. -/
def State.scan (s : State) : State :=
  let t := s.polled.setScanCnt (s.scanCnt + 1)
  if s.pollByte = Config.marker then t.goto .rMark2
  else if s.scanCnt + 1 < s.cfg.scanBound then t.goto .rScan
  else t.fail .frameNotFound

/-- READSTATUS step 4 (R135) and the accumulator reset of step 5 (R136). -/
def State.mark2 (s : State) : State :=
  if s.pollByte = Config.marker then (s.polled.setAcc 0).goto .rId else s.polled.fail .frameMalformed

/-- READSTATUS step 5, the id check (R136). -/
def State.checkId (s : State) : State :=
  if s.pollByte ≠ s.lId ∧ s.lId ≠ Config.broadcastId then s.taken.fail .idMismatch else s.taken.goto .rLen

/-- READSTATUS step 6, the length check, without wrap (R137, R83). -/
def State.checkLen (s : State) : State :=
  if s.pollByte.toNat ≠ s.expLen + Config.lenOverhead then s.taken.fail .lengthMismatch else s.taken.goto .rErr

/-- READSTATUS step 7 (R138): the error byte is staged; step 8 starts with PIDX 0 (R25, R139). -/
def State.stageErr (s : State) : State :=
  ((s.taken.setErrStage s.pollByte).setPidx 0).goto (if 0 < s.expLen then .rParam 0 else .rChk)

/-- READSTATUS step 8 (R139): one parameter into `RXBUF[PIDX]`. -/
def State.takeParam (i : Nat) (s : State) : State :=
  ((s.taken.putReply s.pidx s.pollByte).setPidx (s.pidx + 1)).goto
    (if i + 1 < s.expLen then .rParam (i + 1) else .rChk)

/-- READSTATUS steps 9 and 10 (R140, R141): the checksum byte is polled and not added. -/
def State.checkSum (s : State) : State :=
  if s.pollByte ≠ not8 s.acc then s.polled.fail .checksumMismatch else s.polled.accept

/-- One step of the spec: the transport operation of the current phase and the move to the next (R27, R172). -/
def tick (s : State) : Progress :=
  match s.phase with
  | .idle => .rests s
  | .wDir => .moves ((s.setDir .transmit).goto .wMark0)
  | .wMark0 => sendByte Config.marker (State.goto .wMark1) s
  | .wMark1 => sendByte Config.marker (fun t => (t.setAcc 0).goto .wId) s
  | .wId => emit s.lId (State.goto .wLen) s
  | .wLen => emit (lengthByte s.paramCount) (State.goto .wInstr) s
  | .wInstr => emit (s.cfg.code s.lOp) State.afterInstr s
  | .wParam i => emit (s.paramByte i) (fun t => (t.paramDrawn i).afterParam i) s
  | .wChk => sendByte (not8 s.acc) State.afterChk s
  | .rDrain => if s.busyAnswer then .rests s.busyAsked else .moves (s.busyAsked.goto .rDir)
  | .rDir => .moves (((s.setDir .receive).setScanCnt 0).goto .rScan)
  | .rScan => .moves s.scan
  | .rMark2 => .moves s.mark2
  | .rId => .moves s.checkId
  | .rLen => .moves s.checkLen
  | .rErr => .moves s.stageErr
  | .rParam i => .moves (s.takeParam i)
  | .rChk => .moves s.checkSum
  | .done => .rests s.deliver

/-- At most `n` ticks, ending where the block rests: idle, or waiting for the transport. -/
def runTicks : Nat → State → State
  | 0, s => s
  | n + 1, s =>
    match tick s with
    | .moves t => runTicks n t
    | .rests t => t

/-- The most ticks of one run (log 1). -/
def State.ticks (s : State) : Nat := Config.ticksBesideScan + s.cfg.scanBound

/-- The block looks at TXBUF (R34) and runs on until it rests (D25, log 1). -/
def proceed (s : State) : State := runTicks s.ticks s.watched

end Sys2Proof.Machine
end

