-- ==== Sys2Proof/Machine/Calls.lean ====
section
/-!
DEFINITION. The meanings of the six CMD rows (spec/42_instructions.md R161 to R166). Each admits the call (R169, R33),
latches its operands (spec/10_state.md R26), and lets the sequencer run the call until it returns or the transport makes it
wait (log 1); what the sequencer does with the latches is R172.
-/
namespace Sys2Proof.Machine

/-- Admission, as far as it is the same for every call (R169): the port is idle and `dev.id` is in the data model. -/
def admitCall (s : State) (id : Byte) (accepted : Host.Outcome State Fault Refusal) : Host.Outcome State Fault Refusal :=
  if s.phase ≠ .idle then .refused .portBusy
  else if idLegal id = false then .refused .idReserved
  else accepted

/-- Acceptance (R40): operation and id are latched (R26), the trace of the call starts, the sequencer goes to `W_DIR`. -/
def State.accepted (op : Op) (id : Byte) (s : State) : State :=
  { s with lOp := op, lId := id, trace := [], phase := .wDir }

/-- A Read is accepted: `L_ADDR`, `L_LEN` and the expected reply length (R26, R168). -/
def State.acceptedRead (id address length : Byte) (s : State) : State :=
  { s.accepted .read id with lAddr := address, lLen := length, lExpLen := length }

/-- A Write or RegisterWrite is accepted: `L_ADDR`, `L_N`, no reply parameters expected (R26, R168, D9),
and from here on TXBUF must stay as it is (R34). -/
def State.acceptedWrite (op : Op) (id address : Byte) (buffer : List Byte) (s : State) : State :=
  { s.accepted op id with
    lAddr := address, lN := BitVec.ofNat 8 buffer.length, lTx := buffer, txTouched := false, lExpLen := 0 }

/-- A call without operands but `dev` that may read a reply: Ping, Reset (R26, R168). -/
def State.acceptedPlain (op : Op) (id : Byte) (s : State) : State :=
  { s.accepted op id with lExpLen := 0 }

/-- PING (R161). -/
def execPing (id : Byte) (s : State) : Host.Outcome State Fault Refusal :=
  admitCall s id (.next (proceed (s.acceptedPlain .ping id)))

/-- READ (R162): `length` at most MAX_PARAM (R169), RXBUF of at least `length` bytes (R33). -/
def execRead (id address length : Byte) (s : State) : Host.Outcome State Fault Refusal :=
  admitCall s id
    (if replyLenLegal length = false then .refused .replyTooLong
     else if s.rxbuf.length < length.toNat then .refused .replyBufferTooSmall
     else .next (proceed (s.acceptedRead id address length)))

/-- WRITE (R163): `N` at most 252 (R169). `buffer` is `TXBUF[0 .. N-1]` (R33). -/
def execWrite (id address : Byte) (buffer : List Byte) (s : State) : Host.Outcome State Fault Refusal :=
  admitCall s id
    (if bufferLegal buffer = false then .refused .bufferTooLong
     else .next (proceed (s.acceptedWrite .write id address buffer)))

/-- REGWRITE (R164): as WRITE with its own instruction code; the block keeps no record of the deferred write. -/
def execRegWrite (id address : Byte) (buffer : List Byte) (s : State) : Host.Outcome State Fault Refusal :=
  admitCall s id
    (if bufferLegal buffer = false then .refused .bufferTooLong
     else .next (proceed (s.acceptedWrite .regWrite id address buffer)))

/-- ACTION (R165): no reply is read for any id; no expected reply length is latched, R168 gives it none (log 15). -/
def execAction (id : Byte) (s : State) : Host.Outcome State Fault Refusal :=
  admitCall s id (.next (proceed (s.accepted .action id)))

/-- RESET (R166): it resets nothing in the block. -/
def execReset (id : Byte) (s : State) : Host.Outcome State Fault Refusal :=
  admitCall s id (.next (proceed (s.acceptedPlain .reset id)))

end Sys2Proof.Machine
end

