-- ==== Sys2Proof/Machine/Status.lean ====
section
/-!
DEFINITION. The meaning of the STS row (spec/41_packet_reader.md R130): a status packet is received, which in this spec
means that consecutive polls of the block return its bytes in order (spec/20_memory.md R58, log 16).
-/
namespace Sys2Proof.Machine

/-- The bytes stand at the head of the receiver: the next polls return them in order (R58). -/
def State.receive (bytes : List Byte) (s : State) : State := { s with rxAnswers := bytes ++ s.rxAnswers }

/-- STATUS (R130): the packet reaches the receiver and the block goes on from its phase. A call whose READSTATUS is under
way parses it; where no call reads a reply its bytes stay unread (R239). -/
def execStatus (id len err : Byte) (params : List Byte) (chk : Byte) (s : State) : Host.Outcome State Fault Refusal :=
  .next (proceed (s.receive (encode s.cfg (.status id len err params chk))))

end Sys2Proof.Machine
end

