-- ==== Sys2Proof/Machine/Dispatch.lean ====
section
/-!
DEFINITION. The dispatch: one arm per row of the opcode table, each one call of the instruction's meaning.
-/
namespace Sys2Proof.Machine

def exec (i : Instr) (s : State) : Host.Outcome State Fault Refusal :=
  match i with
  | .ping id => Sys2Proof.Machine.execPing id s
  | .read id address length => Sys2Proof.Machine.execRead id address length s
  | .write id address buffer => Sys2Proof.Machine.execWrite id address buffer s
  | .regWrite id address buffer => Sys2Proof.Machine.execRegWrite id address buffer s
  | .action id => Sys2Proof.Machine.execAction id s
  | .reset id => Sys2Proof.Machine.execReset id s
  | .status id len err params chk => Sys2Proof.Machine.execStatus id len err params chk s

end Sys2Proof.Machine
end

