-- ==== Sys2Proof/Machine/Fetch.lean ====
section
/-!
DEFINITION. The host port (spec/10_state.md R33, R40): how a presented call record becomes an instruction, and how an
instruction is placed where the next step takes it (log 17).
-/
namespace Sys2Proof.Machine

/-- The call the host presents, from its record, `dev.id` and TXBUF (R33, R94). -/
def State.fetch (s : State) : Except DecodeError Instr :=
  decodeCall s.cfg s.callOp s.devId s.callAddr s.callLen s.txbuf

/-- The presented record has been taken (R40): the port holds no second call (R215). -/
def State.takeRequest (s : State) : State := { s with presented := false }

/-- The refusal of a record that is no call (R94, R169). -/
def refusalOf : DecodeError → Refusal
  | .unknownOperation op => .unknownOperation op
  | .idReserved => .idReserved
  | .replyTooLong => .replyTooLong
  | .bufferTooLong => .bufferTooLong
  | .badLength => .malformedCall
  | .noMarker => .malformedCall
  | .truncated => .malformedCall

/-- The host fills in the call record and presents it. -/
def State.presentCall (op : Op) (id address length : Byte) (buffer : List Byte) (s : State) : State :=
  { s with
    callOp := s.cfg.code op, devId := id, callAddr := address, callLen := length, txbuf := buffer
    presented := true, resetReq := false }

/-- A reply is awaited and the packet is at the receiver: a broadcast Ping, which accepts any id, is in its marker scan
(R161, log 17), and nothing is presented. -/
def State.awaitPacket (bytes : List Byte) (s : State) : State :=
  { s.receive bytes with
    lOp := .ping, lId := Config.broadcastId, lExpLen := 0, dir := .receive, scanCnt := 0, phase := .rScan
    presented := false, resetReq := false }

/-- The instruction is placed where the next step takes it: a call at the host port, the operands it has not being left
alone, a status packet at the receiver. -/
def State.place (i : Instr) (s : State) : State :=
  match i with
  | .ping id => s.presentCall .ping id s.callAddr s.callLen s.txbuf
  | .read id address length => s.presentCall .read id address length s.txbuf
  | .write id address buffer => s.presentCall .write id address s.callLen buffer
  | .regWrite id address buffer => s.presentCall .regWrite id address s.callLen buffer
  | .action id => s.presentCall .action id s.callAddr s.callLen s.txbuf
  | .reset id => s.presentCall .reset id s.callAddr s.callLen s.txbuf
  | .status id len err params chk => s.awaitPacket (encode s.cfg (.status id len err params chk))

/-- The first of the bytes 0 to 6 that is no instruction code: there are only six codes. -/
def noCode (c : Params) : Byte :=
  (((List.range 7).map fun n => BitVec.ofNat 8 n).find? fun b => decide (b ∉ c.codes)).getD 0

/-- A word that is no instruction is presented as an operation byte that is none of the six (R94). -/
def State.placeNone (s : State) : State :=
  { s with callOp := noCode s.cfg, presented := true, resetReq := false }

/-- The table word, placed where the next step takes it. -/
def placeWord (s : State) (nbits w : Nat) : State :=
  match decodeTableWord nbits w with
  | some i => s.place i
  | none => s.placeNone

end Sys2Proof.Machine
end

