-- ==== Sys2Proof/Machine/Step.lean ====
section
/-!
DEFINITION. One step of the machine (log 1): the reset event first (spec/70_reset_and_hazards.md R230); then a call the
host presents, which is fetched and run (spec/10_state.md R40); else the block goes on from its phase.
-/
namespace Sys2Proof.Machine

/-- One step. -/
def step (s : State) : Host.Outcome State Fault Refusal :=
  if s.resetReq then .next s.hardReset
  else if s.presented then
    match s.fetch with
    | .ok i => exec i s.takeRequest
    | .error e => .refused (refusalOf e)
  else .next (proceed s)

/-- The state in which the very next step runs the instruction a table word stands for (log 17). -/
def State.withFetchWord (s : State) (nbits w : Nat) : State := placeWord s nbits w

end Sys2Proof.Machine
end

