-- ==== Sys2Proof/Machine/Convenience.lean ====
section
/-!
DEFINITION. The register convenience layer (spec/43_register_convenience.md), host-side pseudo-instructions that expand to
one Write or one Read (spec/30_encoding.md R96). They are outside the block (spec/00_scope.md R4) and no rows of the opcode
table; `step` does not run them.
-/
namespace Sys2Proof.Machine

/-- The addresses of width 1 (R191). -/
def width1Addresses : List Nat :=
  [2, 3, 4, 5, 11, 12, 13, 16, 17, 18, 19, 24, 25, 26, 27, 28, 29, 42, 43, 44, 46, 47]

/-- The addresses of width 2 (R191). -/
def width2Addresses : List Nat := [0, 6, 8, 14, 20, 22, 30, 32, 34, 36, 38, 40, 48]

/-- `widthOf(address)` (R190, R191): 1, 2, or 0 for unsupported. -/
def widthOf (address : Byte) : Nat :=
  if address.toNat ∈ width1Addresses then 1
  else if address.toNat ∈ width2Addresses then 2
  else 0

/-- The low `w` bytes of a value, little-endian (R60, R192). -/
def littleEndian (w value : Nat) : List Byte := [lo8 value, hi8 value].take w

/-- A little-endian value (R60, R193). -/
def littleEndianValue : List Byte → Nat
  | [] => 0
  | b :: rest => b.toNat + 256 * littleEndianValue rest

/-- `putValue(dev, address, value)` (R192): the Write it expands to, or a refusal at width 0. -/
def putValue (id address : Byte) (value : Nat) : Except Refusal Instr :=
  if widthOf address = 0 then .error .widthUnsupported
  else .ok (.write id address (littleEndian (widthOf address) value))

/-- The Read that `getValue(dev, address)` expands to (R193), or a refusal at width 0 or for the broadcast id. -/
def getValueCall (id address : Byte) : Except Refusal Instr :=
  if widthOf address = 0 then .error .widthUnsupported
  else if id = Config.broadcastId then .error .broadcastHasNoValue
  else .ok (.read id address (BitVec.ofNat 8 (widthOf address)))

/-- The tagged result of `getValue` (R193). -/
inductive ValueResult where
  | value (v : Nat)
  | noValue (r : Result)
deriving DecidableEq, Repr

/-- What `getValue(dev, address)` returns in the state in which its Read has returned (R193): the local buffer is RXBUF. -/
def getValueReturn (address : Byte) (s : State) : ValueResult :=
  if s.result = .success then .value (littleEndianValue (s.rxbuf.take (widthOf address))) else .noValue s.result

/-- The host issues `putValue`: it fills TXBUF with the value's bytes and presents the Write (R192, R231). -/
def hostPutValue (id address : Byte) (value : Nat) (s : State) : Host.Outcome State Fault Refusal :=
  if widthOf address = 0 then .refused .widthUnsupported
  else
    execWrite id address (littleEndian (widthOf address) value)
      { s with txbuf := littleEndian (widthOf address) value }

/-- The local buffer `local[0..w-1]` of `getValue` (R193), given to the Read as its RXBUF; what it holds before the Read no
rule says, so free bytes stand there (log 23). -/
def State.withLocal (w : Nat) (s : State) : State :=
  { s with rxbuf := freeBytes s.draws w, draws := s.draws + w }

/-- The host issues `getValue`'s Read (R193) into its local buffer. -/
def hostGetValue (id address : Byte) (s : State) : Host.Outcome State Fault Refusal :=
  if widthOf address = 0 then .refused .widthUnsupported
  else if id = Config.broadcastId then .refused .broadcastHasNoValue
  else execRead id address (BitVec.ofNat 8 (widthOf address)) (s.withLocal (widthOf address))

end Sys2Proof.Machine
end

