-- ==== Sys2Proof/Machine/Function.lean ====
section
/-!
DEFINITION. The framer as functions: `EncodeCommand` (spec/40_packet_writer.md R115), `ParseStatus`
(spec/41_packet_reader.md R142) and the whole call (spec/42_instructions.md R174) with its exit state
(spec/60_exceptions.md R209). They do not mention the sequencer; statements compare the two.
-/
namespace Sys2Proof.Machine

/-! ## The command packet -/

/-- `EncodeCommand(i, c, p)` (R115). -/
def encodeCommand (id code : Byte) (params : List Byte) : List Byte :=
  header id (lengthByte params.length) code ++ params ++
    [checksum (id :: lengthByte params.length :: code :: params)]

/-- `params(op, operands)`, the parameters of a call in wire order (R86); a status packet's are its own. -/
def paramsOf : Instr → List Byte
  | .ping _ => []
  | .read _ address length => [address, length]
  | .write _ address buffer => address :: buffer
  | .regWrite _ address buffer => address :: buffer
  | .action _ => []
  | .reset _ => []
  | .status _ _ _ params _ => params

/-! ## The reply -/

/-- What READSTATUS makes of the bytes it polls: the result, the number of polls, SCAN_CNT at the end, and the bytes it
added to ACC, in order (id, length, error byte, parameters). -/
structure Verdict where
  result : Result
  polls : Nat
  scanned : Nat
  summed : List Byte
deriving DecidableEq, Repr

/-- The index of the first marker among the first `bound` = SCAN_BOUND polls, counted from 0 (R134). -/
def firstMarker (bound : Nat) (p : Nat → Byte) : Option Nat :=
  (List.range bound).find? fun k => p k == Config.marker

/-- `ParseStatus(e, n, s)` (R142) with SCAN_BOUND = `bound`; `p k` is the spec's `s_{k+1}`. -/
def parseStatus (bound : Nat) (e : Byte) (n : Nat) (p : Nat → Byte) : Verdict :=
  match firstMarker bound p with
  | none => ⟨.frameNotFound, bound, bound, []⟩
  | some k =>
    if p (k + 1) ≠ Config.marker then ⟨.frameMalformed, k + 2, k + 1, []⟩
    else if p (k + 2) ≠ e ∧ e ≠ Config.broadcastId then ⟨.idMismatch, k + 3, k + 1, [p (k + 2)]⟩
    else if (p (k + 3)).toNat ≠ n + Config.lenOverhead then
      ⟨.lengthMismatch, k + 4, k + 1, [p (k + 2), p (k + 3)]⟩
    else
      let body := (List.range (n + 3)).map fun j => p (k + 2 + j)
      if p (k + 5 + n) ≠ checksum body then ⟨.checksumMismatch, k + 6 + n, k + 1, body⟩
      else ⟨.success, k + 6 + n, k + 1, body⟩

/-- The byte the poll after `k` others returns (R56): the receiver's, and free bytes once it holds no more. -/
def State.pollAt (s : State) (k : Nat) : Byte :=
  (s.rxAnswers[k]?).getD (Config.freeByte (s.draws + (k - s.rxAnswers.length)))

/-- `k` polls have been made: the receiver's bytes or free ones are used up, and the events stand on the trace. -/
def State.heard (k : Nat) (s : State) : State :=
  { s with
    rxAnswers := s.rxAnswers.drop k
    draws := s.draws + (k - s.rxAnswers.length)
    trace := s.trace ++ (List.range k).map fun j => Event.rx (s.pollAt j) }

/-- The call returns with a result (R29, R210). -/
def State.returned (r : Result) (s : State) : State := { s with result := r, phase := .idle }

/-- What is left of a verdict in the latches (R209): SCAN_CNT, ACC, ERR_STAGE and PIDX. ACC keeps the writer's sum when
nothing was added; ERR_STAGE is written when the error byte was reached, PIDX with it. -/
def State.latchedVerdict (v : Verdict) (s : State) : State :=
  { s with
    scanCnt := v.scanned
    acc := if v.summed = [] then s.acc else sum8 v.summed
    errStage := v.summed.getD 2 s.errStage
    pidx := if v.summed.length < 3 then s.pidx else v.summed.length - 3 }

/-- The exit of a call that read a reply (R209). On `Success` `dev.err` is the error byte and RXBUF holds the parameters;
on a failure `dev.err` is as it was and the reply part of RXBUF is `any`. -/
def State.exitWith (v : Verdict) (s : State) : State :=
  if v.result = .success then
    { (s.latchedVerdict v).returned .success with
      devErr := v.summed.getD 2 s.devErr
      rxbuf := v.summed.drop 3 ++ s.rxbuf.drop s.expLen }
  else (s.latchedVerdict v).spoilReply.returned v.result

/-- READSTATUS from its marker scan to the return of the call (R130, R142, R209). -/
def State.replyRead (s : State) : State :=
  let v := parseStatus s.cfg.scanBound s.lId s.expLen s.pollAt
  (s.heard v.polls).exitWith v

/-- The command packet of an accepted call, sent whole (R115): its bytes on the trace after `Dir(T)`, ACC its sum, the
transport's answers used up. -/
def State.commandSent (params : List Byte) (s : State) : State :=
  let packet := encodeCommand s.lId (s.cfg.code s.lOp) params
  { s with
    acc := sum8 (s.lId :: lengthByte params.length :: s.cfg.code s.lOp :: params)
    dir := .transmit
    pidx := pidxAfter s.lOp params.length s.pidx
    trace := s.trace ++ Event.dir .transmit :: packet.map Event.tx
    sendAnswers := s.sendAnswers.drop packet.length }

/-- The drain fence passed at its first query, and the line switched to receive (R67, R132, R133). -/
def State.turnedAround (s : State) : State :=
  { s with
    dir := .receive
    trace := s.trace ++ [Event.busy false, Event.dir .receive]
    busyAnswers := s.busyAnswers.drop 1 }

/-- A whole call from its acceptance to its return (R174), when the transport makes it wait nowhere. -/
def State.callDone (params : List Byte) (s : State) : State :=
  if replyExpected s.lOp s.lId then (s.commandSent params).turnedAround.replyRead
  else (s.commandSent params).returned .success

/-- The state in which a call is accepted (R26, R40). -/
def State.acceptedAs (i : Instr) (s : State) : State :=
  match i with
  | .ping id => s.acceptedPlain .ping id
  | .read id address length => s.acceptedRead id address length
  | .write id address buffer => s.acceptedWrite .write id address buffer
  | .regWrite id address buffer => s.acceptedWrite .regWrite id address buffer
  | .action id => s.accepted .action id
  | .reset id => s.acceptedPlain .reset id
  | .status _ _ _ _ _ => s

end Sys2Proof.Machine
end

