-- ==== Sys2Proof/Safety.lean ====
section
/-!
DEFINITION. The terms claims are stated in: when a call is admitted, when the transport makes a call wait nowhere, what a
trace holds, and the invariants of the machine.
-/
namespace Sys2Proof.Machine

/-! ## Calls and the conditions they run under -/

/-- The id an instruction is addressed to; of a status packet, the id it carries. -/
def targetOf : Instr → Byte
  | .ping id => id
  | .read id _ _ => id
  | .write id _ _ => id
  | .regWrite id _ _ => id
  | .action id => id
  | .reset id => id
  | .status id _ _ _ _ => id

/-- The operation of a call. -/
def operationOf : Instr → Option Op
  | .ping _ => some .ping
  | .read _ _ _ => some .read
  | .write _ _ _ => some .write
  | .regWrite _ _ _ => some .regWrite
  | .action _ => some .action
  | .reset _ => some .reset
  | .status _ _ _ _ _ => none

/-- The command packet of a call, on the wire, under the given parameters (R81, R115). -/
def packetOf (c : Params) (i : Instr) : List Byte :=
  match operationOf i with
  | some op => encodeCommand (targetOf i) (c.code op) (paramsOf i)
  | none => []

/-- Whether the call reads a reply (R167). -/
def readsReply (i : Instr) : Bool :=
  match operationOf i with
  | some op => replyExpected op (targetOf i)
  | none => false

/-- The reply parameter count of a call (R168). -/
def replyLen : Instr → Nat
  | .read _ _ length => length.toNat
  | _ => 0

/-- Whether RXBUF can hold the reply (R33: its capacity is at least `length`). -/
def replyFits (i : Instr) (s : State) : Bool := decide (replyLen i ≤ s.rxbuf.length)

/-- The call is admitted (R169, R33): one of the six, its operands legal, the port idle. -/
def admissible (i : Instr) (s : State) : Bool :=
  decide (i.format = .cmd) && i.wellFormed && replyFits i s && decide (s.phase = .idle)

/-- The `buffer` operand of a Write or RegisterWrite is what TXBUF holds (R33, R34). -/
def bufferInPlace (i : Instr) (s : State) : Bool :=
  match i with
  | .write _ _ buffer => decide (s.txbuf = buffer)
  | .regWrite _ _ buffer => decide (s.txbuf = buffer)
  | _ => true

/-- The transport accepts the next `n` bytes at once (R54). -/
def acceptsBytes (n : Nat) (s : State) : Bool :=
  decide (s.sendAnswers.take n = List.replicate n true)

/-- The transport answers "not busy" to the next query (R55). -/
def drained (s : State) : Bool := decide (s.busyAnswers.head? = some false)

/-- The transport makes the call wait nowhere (the premise T6 of R57, made exact): it accepts every byte of the packet
at once, and, when a reply is read, answers "not busy" at once. -/
def transportServes (i : Instr) (s : State) : Bool :=
  acceptsBytes (packetOf s.cfg i).length s && (!(readsReply i) || drained s)

/-- The block is at the start of its marker scan (R133, R134): the next polls are READSTATUS's. -/
def listening (s : State) : Bool := decide (s.phase = .rScan) && decide (s.scanCnt = 0)

/-! ## How a call ends -/

/-- The marker scan ends at poll `k`, counted from 0: the first marker, within `bound` = SCAN_BOUND polls (R134). -/
def markerAt (bound : Nat) (p : Nat → Byte) (k : Nat) : Prop :=
  k < bound ∧ (∀ j, j < k → p j ≠ Config.marker) ∧ p k = Config.marker

/-- A call that sent `packet` and read a reply has returned with the verdict `v` (R174, R209): its result, its trace, the
polled bytes used up, and, on `Success` only, `dev.err` and the parameters in RXBUF. -/
def RepliedWith (packet : List Byte) (v : Verdict) (s t : State) : Prop :=
  t.phase = .idle ∧ t.result = v.result ∧ t.dir = .receive ∧
    t.trace = Event.dir .transmit :: packet.map Event.tx ++ [Event.busy false, Event.dir .receive] ++
      (List.range v.polls).map (fun k => Event.rx (s.pollAt k)) ∧
    t.rxAnswers = s.rxAnswers.drop v.polls ∧
    (v.result = .success →
      t.devErr = s.pollAt (v.scanned + 3) ∧
        t.rxbuf = v.summed.drop 3 ++ s.rxbuf.drop (v.summed.length - 3)) ∧
    (v.result ≠ .success → t.devErr = s.devErr)

/-- A call that sent `packet` and read no reply has returned (R170, R209): `Success`, and the receive path, `dev.err`,
RXBUF and the parser's registers as they were. -/
def ReturnedAtOnce (packet : List Byte) (s t : State) : Prop :=
  t.phase = .idle ∧ t.result = .success ∧ t.dir = .transmit ∧
    t.trace = Event.dir .transmit :: packet.map Event.tx ∧
    t.busyAnswers = s.busyAnswers ∧ t.rxAnswers = s.rxAnswers ∧ t.devErr = s.devErr ∧ t.rxbuf = s.rxbuf ∧
    t.errStage = s.errStage ∧ t.scanCnt = s.scanCnt

/-! ## Traces -/

/-- The bytes sent, in order (R52). -/
def sentBytes (t : List Event) : List Byte :=
  t.filterMap fun e => match e with
    | .tx b => some b
    | _ => none

/-- The bytes polled, in order (R52). -/
def polledBytes (t : List Event) : List Byte :=
  t.filterMap fun e => match e with
    | .rx b => some b
    | _ => none

/-- The writer's part of a trace: `Dir(T)` and sends (R115). -/
def Sending (t : List Event) : Prop := ∃ tx : List Byte, t = Event.dir .transmit :: tx.map Event.tx

/-- All sends are done and every query so far answered busy (R132). -/
def Draining (t : List Event) : Prop :=
  ∃ (tx : List Byte) (j : Nat), t = Event.dir .transmit :: tx.map Event.tx ++ List.replicate j (Event.busy true)

/-- The drain fence is passed: the last query answered "not busy" (R67). -/
def Turning (t : List Event) : Prop := ∃ u, Draining u ∧ t = u ++ [Event.busy false]

/-- After the one switch to receive there are only polls (R66). -/
def Listening (t : List Event) : Prop :=
  ∃ (u : List Event) (rx : List Byte), Turning u ∧ t = u ++ Event.dir .receive :: rx.map Event.rx

/-- The trace of a call, whole or broken off (R66, R67, R174). -/
def HalfDuplex (t : List Event) : Prop := t = [] ∨ Draining t ∨ Turning t ∨ Listening t

/-! ## What the host owns -/

/-- What only the host writes: `dev.id`, the call record and TXBUF (R31, R33, R34); and the machine's parameters, which nothing
writes (R38). -/
def HostUntouched (s t : State) : Prop :=
  t.cfg = s.cfg ∧ t.devId = s.devId ∧ t.callOp = s.callOp ∧ t.callAddr = s.callAddr ∧ t.callLen = s.callLen ∧ t.txbuf = s.txbuf

/-- RXBUF keeps its length, and its bytes from index `n` on (R35). -/
def ReplyTailUntouched (n : Nat) (s t : State) : Prop :=
  t.rxbuf.length = s.rxbuf.length ∧ ∀ k, n ≤ k → t.rxbuf[k]? = s.rxbuf[k]?

/-- The latches of the accepted call, which stay as they are until the next one is accepted (R26, R70). -/
def LatchesKept (s t : State) : Prop :=
  t.lOp = s.lOp ∧ t.lId = s.lId ∧ t.lAddr = s.lAddr ∧ t.lLen = s.lLen ∧ t.lN = s.lN ∧ t.lExpLen = s.lExpLen ∧
    t.lTx = s.lTx

/-! ## Invariants -/

/-- The trace has the form of R174 and is as far as the phase says. -/
def TraceInv (s : State) : Prop :=
  match s.phase with
  | .idle => HalfDuplex s.trace
  | .wDir => s.trace = []
  | .wMark0 | .wMark1 | .wId | .wLen | .wInstr | .wParam _ | .wChk => Sending s.trace
  | .rDrain => Draining s.trace
  | .rDir => Turning s.trace
  | .rScan | .rMark2 | .rId | .rLen | .rErr | .rParam _ | .rChk => Listening s.trace
  | .done => Sending s.trace ∨ Listening s.trace

/-- ACC is the sum of the bytes of the current packet after its two markers (R21, R22): sent ones in the writer's phases,
polled ones in the parser's, where the first `SCAN_CNT` polls were the scan's and one more the second marker's. -/
def SumInv (s : State) : Prop :=
  match s.phase with
  | .wDir => s.trace = []
  | .wMark0 => sentBytes s.trace = [] ∧ polledBytes s.trace = []
  | .wMark1 => sentBytes s.trace = [Config.marker] ∧ polledBytes s.trace = []
  | .wId => sentBytes s.trace = [Config.marker, Config.marker] ∧ s.acc = 0 ∧ polledBytes s.trace = []
  | .wLen | .wInstr | .wParam _ | .wChk =>
    (sentBytes s.trace).take 2 = [Config.marker, Config.marker] ∧ 2 < (sentBytes s.trace).length ∧
      s.acc = sum8 ((sentBytes s.trace).drop 2) ∧ polledBytes s.trace = []
  | .rDrain | .rDir => polledBytes s.trace = []
  | .rScan | .rMark2 => (polledBytes s.trace).length = s.scanCnt
  | .rId => (polledBytes s.trace).length = s.scanCnt + 1 ∧ s.acc = 0
  | .rLen | .rErr | .rParam _ | .rChk =>
    s.scanCnt + 1 < (polledBytes s.trace).length ∧ s.acc = sum8 ((polledBytes s.trace).drop (s.scanCnt + 1))
  | .idle | .done => True

/-- The latches of a call hold legal values (R26, R33): a legal id, at most MAX_PARAM command parameters, and, where a
reply is read, a reply length within MAX_PARAM and within RXBUF. -/
def latchesLegal (s : State) : Prop :=
  idLegal s.lId = true ∧ s.paramCount ≤ Config.maxParam ∧
    (replyExpected s.lOp s.lId = true → s.expLen ≤ Config.maxParam ∧ s.expLen ≤ s.rxbuf.length)

/-- What the phase says of the other registers: DIR (R30, R56), whether the call reads a reply (R167), and where the
indices of the loops stand (R24, R25). -/
def phaseAgrees (s : State) : Prop :=
  match s.phase with
  | .idle | .wDir | .done => True
  | .wMark0 | .wMark1 | .wId | .wLen | .wInstr | .wChk => s.dir = .transmit
  | .wParam i => s.dir = .transmit ∧ i < s.paramCount ∧ s.pidx = appendIndex s.lOp i
  | .rDrain | .rDir => s.dir = .transmit ∧ replyExpected s.lOp s.lId = true
  | .rScan => s.dir = .receive ∧ replyExpected s.lOp s.lId = true ∧ s.scanCnt < s.cfg.scanBound
  | .rMark2 | .rId | .rLen | .rErr | .rChk => s.dir = .receive ∧ replyExpected s.lOp s.lId = true
  | .rParam i => s.dir = .receive ∧ replyExpected s.lOp s.lId = true ∧ i < s.expLen ∧ s.pidx = i

/-- The open parameters are legal (D3, D15), SCAN_CNT and PIDX stay in their ranges (R24, R25), the latches of a call are
legal and agree with its phase. -/
def ControlInv (s : State) : Prop :=
  s.cfg.legal = true ∧ s.scanCnt ≤ s.cfg.scanBound ∧ s.pidx ≤ Config.maxParam ∧ (s.phase ≠ .idle → latchesLegal s) ∧ phaseAgrees s

end Sys2Proof.Machine
end

