-- ==== Sys2Proof/Certificates/Slice0/Obligations.lean ====
section
/-!
DEFINITION. What is claimed of the machine, for the provers. Each statement's docstring names the rules of spec/ it
formalises, and the log entries (notes/assumptions) it rests on where it rests on a choice of the model or of the spec.
Polls are counted from 0: `s.pollAt k` is the spec's `s_{k+1}`, the byte the (k+1)-th poll from `s` on returns. Statements hold
for every legal value of the parameters the spec leaves open (`s.cfg`, log 27), unless they name the defaults
(`Config.params`).
-/
open Sys2Proof Sys2Proof.Machine

/-! ## Encoding -/

/-- Decoding what the encoder wrote gives the instruction back, whatever bytes follow and whatever six distinct codes are
used (R81, R82, R86, R87). -/
def Obligations.DecodeEncode : Prop :=
  ∀ (c : Params) (i : Instr) (rest : List Byte), c.legal = true → i.wellFormed = true →
    decode c i.format (encode c i ++ rest) = .ok (i, rest)

/-- What decodes is well formed, of the format asked for, and its bytes are the encoder's: within a format each packet has
one meaning (R83, R86, R88, R93). -/
def Obligations.EncodeDecode : Prop :=
  ∀ (c : Params) (f : Format) (bytes rest : List Byte) (i : Instr), decode c f bytes = .ok (i, rest) →
    i.format = f ∧ i.wellFormed = true ∧ bytes = encode c i ++ rest

/-- No header selects two of the six CMD rows (R88). -/
def Obligations.CommandRowsDisjoint : Prop :=
  ∀ (h : BitVec 40) (r q : Row), r ∈ tableRows → q ∈ tableRows → r.format = .cmd → q.format = .cmd →
    r.selects h = true → q.selects h = true → r = q

/-- Under the default codes (presumed, log 5), which are the table's, the header of an encoded instruction selects a row of
its own format with its own mnemonic (R87, R88). -/
def Obligations.EncodedHeaderSelectsItsRow : Prop :=
  ∀ i : Instr, i.wellFormed = true →
    ∃ r ∈ tableRows, r.mnemonic = i.mnemonic ∧ r.format = i.format ∧ r.selects (headerWord (encode Config.params i)) = true

/-- A few packets written out from the spec's vectors V1, V5, V9, V18, V22, V23 and X2 decode to what they stand for. The
instruction bytes are the presumed defaults (log 5). That a command's checksum byte is left over by `decode`, being no operand,
is the model's choice (log 18). -/
def Obligations.SpecWordsDecode : Prop :=
  decode Config.params .cmd [0xFF, 0xFF, 0x01, 0x02, 0x01, 0xFB] = .ok (.ping 1, [0xFB]) ∧
  decode Config.params .cmd [0xFF, 0xFF, 0x01, 0x04, 0x02, 0x24, 0x02, 0xD2] = .ok (.read 1 36 2, [0xD2]) ∧
  decode Config.params .cmd [0xFF, 0xFF, 0x01, 0x05, 0x03, 0x1E, 0x00, 0x02, 0xD6] = .ok (.write 1 30 [0x00, 0x02], [0xD6]) ∧
  decode Config.params .cmd [0xFF, 0xFF, 0x01, 0x05, 0x04, 0x1E, 0x00, 0x02, 0xD5] = .ok (.regWrite 1 30 [0x00, 0x02], [0xD5]) ∧
  decode Config.params .cmd [0xFF, 0xFF, 0x01, 0x02, 0x05, 0xF7] = .ok (.action 1, [0xF7]) ∧
  decode Config.params .cmd [0xFF, 0xFF, 0x01, 0x02, 0x06, 0xF6] = .ok (.reset 1, [0xF6]) ∧
  decode Config.params .sts [0xFF, 0xFF, 0x01, 0x04, 0x00, 0x10, 0x00, 0xEA] = .ok (.status 1 4 0 [0x10, 0x00] 0xEA, [])

/-- The command packet of a legal call is the format CMD: two markers, the id, the length byte `n + 2`, which does not
wrap, the instruction code, the parameters, and a checksum over every byte after the markers; 6 to 259 bytes (R80, R81,
R83). -/
def Obligations.PacketLayout : Prop :=
  ∀ (c : Params) (i : Instr) (op : Op), operationOf i = some op → i.wellFormed = true →
    ∃ len chk : Byte,
      packetOf c i = [Config.marker, Config.marker, targetOf i, len, c.code op] ++ paramsOf i ++ [chk] ∧
        idLegal (targetOf i) = true ∧ len.toNat = (paramsOf i).length + 2 ∧
        chk = not8 (targetOf i + len + c.code op + sum8 (paramsOf i)) ∧
        6 ≤ (packetOf c i).length ∧ (packetOf c i).length ≤ 259

/-- The bytes after the markers of any packet, checksum included, sum to FF (R85 a). -/
def Obligations.ChecksumComplement : Prop :=
  ∀ bytes : List Byte, sum8 (bytes ++ [checksum bytes]) = 0xFF

/-- One flipped bit in the error byte, a parameter or the checksum of an accepted reply: `ChecksumMismatch` (R85 d). `m` is
the byte's place, counted from the error byte. -/
def Obligations.BitFlipFailsChecksum : Prop :=
  ∀ (bound : Nat) (e : Byte) (n k m j : Nat) (p : Nat → Byte), markerAt bound p k →
    (parseStatus bound e n p).result = .success → m ≤ n + 1 → j < 8 →
      (parseStatus bound e n fun x => if x = k + 4 + m then p x ^^^ (1#8 <<< j) else p x).result = .checksumMismatch

/-- A command packet read back as a status packet of the same field values is accepted: id, length byte and parameters are
the command's, the error byte is the instruction code (R82). -/
def Obligations.CommandParsesAsStatus : Prop :=
  ∀ (c : Params) (i : Instr) (op : Op) (p : Nat → Byte), c.legal = true → operationOf i = some op →
    i.wellFormed = true → (∀ k, k < (packetOf c i).length → (packetOf c i)[k]? = some (p k)) →
      (parseStatus c.scanBound (targetOf i) (paramsOf i).length p).result = .success ∧
      (parseStatus c.scanBound (targetOf i) (paramsOf i).length p).summed =
        [targetOf i, lengthByte (paramsOf i).length, c.code op] ++ paramsOf i

/-! ## Calls that run to their end -/

/-- Which calls read a reply (R167): Ping always, Action never, the others unless the id is broadcast. -/
def Obligations.ReplyExpectedTable : Prop :=
  ∀ (op : Op) (id : Byte),
    replyExpected op id = true ↔ op = .ping ∨ (op ≠ .action ∧ id ≠ Config.broadcastId)

/-- The call as a pure function (R174): whenever it is admitted and the transport makes it wait nowhere, `exec` answers the
state the function gives, in every field. The model's choices that this takes in: one step runs the whole call (log 1), the
free bytes a failed reply leaves in RXBUF (log 9), the fields `lTx` and `txTouched` (log 10), what PIDX holds after its loop
(log 14), the latches a call does not write (log 15), the expected length of Write, RegisterWrite and Reset (D9, log 19). -/
def Obligations.CallAsFunction : Prop :=
  ∀ (i : Instr) (s : State), s.cfg.legal = true → admissible i s = true → bufferInPlace i s = true →
    transportServes i s = true → exec i s = .next ((s.acceptedAs i).callDone (paramsOf i))

/-- Ping (R161): the packet without parameters, then always the reply, also for the broadcast id; the verdict of the
parser for an expected length of 0 is the result. -/
def Obligations.PingRuns : Prop :=
  ∀ (id : Byte) (s : State), s.cfg.legal = true → admissible (.ping id) s = true → transportServes (.ping id) s = true →
    ∃ t, exec (.ping id) s = .next t ∧
      RepliedWith (encodeCommand id s.cfg.ping []) (parseStatus s.cfg.scanBound id 0 s.pollAt) s t

/-- Read (R162): address and length are the parameters; a reply of `length` parameters is read into RXBUF unless the id is
broadcast, and then the call succeeds with nothing read. -/
def Obligations.ReadRuns : Prop :=
  ∀ (id address length : Byte) (s : State), s.cfg.legal = true →
    admissible (.read id address length) s = true → transportServes (.read id address length) s = true →
      ∃ t, exec (.read id address length) s = .next t ∧
        (id ≠ Config.broadcastId →
          RepliedWith (encodeCommand id s.cfg.read [address, length]) (parseStatus s.cfg.scanBound id length.toNat s.pollAt) s t) ∧
        (id = Config.broadcastId → ReturnedAtOnce (encodeCommand id s.cfg.read [address, length]) s t)

/-- Write (R163): address and data are the parameters; a reply without parameters (the spec's decision D9, log 19) is read
unless the id is broadcast. -/
def Obligations.WriteRuns : Prop :=
  ∀ (id address : Byte) (buffer : List Byte) (s : State), s.cfg.legal = true →
    admissible (.write id address buffer) s = true → s.txbuf = buffer → transportServes (.write id address buffer) s = true →
      ∃ t, exec (.write id address buffer) s = .next t ∧
        (id ≠ Config.broadcastId →
          RepliedWith (encodeCommand id s.cfg.write (address :: buffer)) (parseStatus s.cfg.scanBound id 0 s.pollAt) s t) ∧
        (id = Config.broadcastId → ReturnedAtOnce (encodeCommand id s.cfg.write (address :: buffer)) s t)

/-- RegisterWrite (R164): as Write, with its own instruction code (D9, log 19). -/
def Obligations.RegisterWriteRuns : Prop :=
  ∀ (id address : Byte) (buffer : List Byte) (s : State), s.cfg.legal = true →
    admissible (.regWrite id address buffer) s = true → s.txbuf = buffer → transportServes (.regWrite id address buffer) s = true →
      ∃ t, exec (.regWrite id address buffer) s = .next t ∧
        (id ≠ Config.broadcastId →
          RepliedWith (encodeCommand id s.cfg.regWrite (address :: buffer)) (parseStatus s.cfg.scanBound id 0 s.pollAt) s t) ∧
        (id = Config.broadcastId → ReturnedAtOnce (encodeCommand id s.cfg.regWrite (address :: buffer)) s t)

/-- Action (R165): the packet without parameters, and for every id `Success` with nothing read (the spec's decision D19,
log 26). -/
def Obligations.ActionRuns : Prop :=
  ∀ (id : Byte) (s : State), s.cfg.legal = true → admissible (.action id) s = true → transportServes (.action id) s = true →
    ∃ t, exec (.action id) s = .next t ∧ ReturnedAtOnce (encodeCommand id s.cfg.action []) s t

/-- Reset (R166): the packet without parameters; a reply without parameters (D9, log 19) is read unless the id is broadcast.
Nothing of the block is reset. -/
def Obligations.ResetRuns : Prop :=
  ∀ (id : Byte) (s : State), s.cfg.legal = true → admissible (.reset id) s = true → transportServes (.reset id) s = true →
    ∃ t, exec (.reset id) s = .next t ∧
      (id ≠ Config.broadcastId →
        RepliedWith (encodeCommand id s.cfg.reset []) (parseStatus s.cfg.scanBound id 0 s.pollAt) s t) ∧
      (id = Config.broadcastId → ReturnedAtOnce (encodeCommand id s.cfg.reset []) s t)

/-! ## Status packets -/

/-- READSTATUS (R130): a status packet that reaches a block at the start of its marker scan, or one that waits in its drain
wait and is answered "not busy" next, is parsed as the pure function says (R142), and the call returns as R209 says, in
every field. The row's meaning is the model's choice (log 16), that one step runs to the return too (log 1), and so are the
free bytes a failed reply leaves in RXBUF (log 9) and what PIDX holds after its loop (log 14). -/
def Obligations.StatusIsParsed : Prop :=
  ∀ (id len err : Byte) (params : List Byte) (chk : Byte) (s : State), s.cfg.legal = true →
    s.expLen ≤ s.rxbuf.length →
      (listening s = true →
        exec (.status id len err params chk) s =
          .next (s.receive (encode s.cfg (.status id len err params chk))).replyRead) ∧
      (s.phase = .rDrain → drained s = true →
        exec (.status id len err params chk) s =
          .next (s.receive (encode s.cfg (.status id len err params chk))).turnedAround.replyRead)

/-- A reply that passes every check (R139 to R141): `Success`, `dev.err` is the error byte whatever its value, RXBUF holds the
parameters and is as it was behind them, the packet is used up and no byte more (R93 e). That the packet stands before
everything else the receiver holds is the model's meaning of the row (log 16). -/
def Obligations.GoodStatusAccepted : Prop :=
  ∀ (id len err : Byte) (params : List Byte) (chk : Byte) (s : State), s.cfg.legal = true → listening s = true →
    s.expLen ≤ s.rxbuf.length → params.length = s.expLen → len.toNat = s.expLen + Config.lenOverhead →
    (id = s.lId ∨ s.lId = Config.broadcastId) → chk = checksum (id :: len :: err :: params) →
      ∃ t, exec (.status id len err params chk) s = .next t ∧ t.phase = .idle ∧ t.result = .success ∧
        t.devErr = err ∧ t.rxbuf = params ++ s.rxbuf.drop s.expLen ∧ t.rxAnswers = s.rxAnswers ∧
        t.trace = s.trace ++ (encode s.cfg (.status id len err params chk)).map Event.rx

/-- Where no call is under way a status packet is not polled (R239). That its bytes then wait at the head of the receiver, before
older ones, and that nothing else changes, is the model's meaning of the row (log 16). -/
def Obligations.StatusUnreadWhenIdle : Prop :=
  ∀ (id len err : Byte) (params : List Byte) (chk : Byte) (s : State), s.phase = .idle →
    exec (.status id len err params chk) s =
      .next { s with rxAnswers := encode s.cfg (.status id len err params chk) ++ s.rxAnswers }

/-- What receiving a status packet leaves alone, in any phase: what the host owns, the latches, and RXBUF behind the expected
reply (R26, R31, R35). The model's choices in it: `lTx` and `txTouched` are fields of its own, and what it keeps in mind of a
change of TXBUF is what it finds when it begins (R34, R70, log 10); a failed reply leaves RXBUF behind its length as it was
(log 9); a packet that is received is the block going on from its phase (log 16). -/
def Obligations.StatusFrame : Prop :=
  ∀ (id len err : Byte) (params : List Byte) (chk : Byte) (s t : State), ControlInv s →
    exec (.status id len err params chk) s = .next t →
      HostUntouched s t ∧ t.presented = s.presented ∧ t.resetReq = s.resetReq ∧ LatchesKept s t ∧
      t.txTouched = s.watched.txTouched ∧ ReplyTailUntouched s.expLen s t

/-! ## Results -/

/-- `FrameNotFound` exactly when a reply is read and all SCAN_BOUND polls of the scan returned another byte than the marker
(R202). -/
def Obligations.FrameNotFoundExactly : Prop :=
  ∀ (i : Instr) (s : State), s.cfg.legal = true → admissible i s = true → bufferInPlace i s = true →
    transportServes i s = true →
    ∃ t, exec i s = .next t ∧
      (t.result = .frameNotFound ↔
        readsReply i = true ∧ ∀ k, k < s.cfg.scanBound → s.pollAt k ≠ Config.marker)

/-- `FrameMalformed` exactly when a reply is read, the scan found the marker, and the next poll returned another byte
(R203). -/
def Obligations.FrameMalformedExactly : Prop :=
  ∀ (i : Instr) (s : State), s.cfg.legal = true → admissible i s = true → bufferInPlace i s = true →
    transportServes i s = true →
    ∃ t, exec i s = .next t ∧
      (t.result = .frameMalformed ↔
        readsReply i = true ∧ ∃ k, markerAt s.cfg.scanBound s.pollAt k ∧ s.pollAt (k + 1) ≠ Config.marker)

/-- `IdMismatch` exactly when both markers were accepted and the next byte differs from the id the request was addressed to,
which is not broadcast (R204). -/
def Obligations.IdMismatchExactly : Prop :=
  ∀ (i : Instr) (s : State), s.cfg.legal = true → admissible i s = true → bufferInPlace i s = true →
    transportServes i s = true →
    ∃ t, exec i s = .next t ∧
      (t.result = .idMismatch ↔
        readsReply i = true ∧ targetOf i ≠ Config.broadcastId ∧
          ∃ k, markerAt s.cfg.scanBound s.pollAt k ∧ s.pollAt (k + 1) = Config.marker ∧ s.pollAt (k + 2) ≠ targetOf i)

/-- `LengthMismatch` exactly when markers and id were accepted and the next byte differs from `expLen + 2`, compared without
wrap (R205). `expLen` is `replyLen` (R168): `length` for a Read and 0 for a Ping, as the source has it, and 0 for a Write, a
RegisterWrite and a Reset by the spec's decision D9 (log 19), on which the statement rests for these three. -/
def Obligations.LengthMismatchExactly : Prop :=
  ∀ (i : Instr) (s : State), s.cfg.legal = true → admissible i s = true → bufferInPlace i s = true →
    transportServes i s = true →
    ∃ t, exec i s = .next t ∧
      (t.result = .lengthMismatch ↔
        readsReply i = true ∧
          ∃ k, markerAt s.cfg.scanBound s.pollAt k ∧ s.pollAt (k + 1) = Config.marker ∧
            (s.pollAt (k + 2) = targetOf i ∨ targetOf i = Config.broadcastId) ∧
            (s.pollAt (k + 3)).toNat ≠ replyLen i + Config.lenOverhead)

/-- `ChecksumMismatch` exactly when markers, id and length were accepted, and the byte after the error byte and the
parameters differs from the complement of the sum of id, length, error byte and parameters (R206). How many parameters there
are, and so which length byte is accepted and where the checksum stands, is `replyLen` (R168), which is 0 for a Write, a
RegisterWrite and a Reset by the spec's decision D9 (log 19). -/
def Obligations.ChecksumMismatchExactly : Prop :=
  ∀ (i : Instr) (s : State), s.cfg.legal = true → admissible i s = true → bufferInPlace i s = true →
    transportServes i s = true →
    ∃ t, exec i s = .next t ∧
      (t.result = .checksumMismatch ↔
        readsReply i = true ∧
          ∃ k, markerAt s.cfg.scanBound s.pollAt k ∧ s.pollAt (k + 1) = Config.marker ∧
            (s.pollAt (k + 2) = targetOf i ∨ targetOf i = Config.broadcastId) ∧
            (s.pollAt (k + 3)).toNat = replyLen i + Config.lenOverhead ∧
            s.pollAt (k + 5 + replyLen i) ≠
              not8 (sum8 ((List.range (replyLen i + 3)).map fun j => s.pollAt (k + 2 + j))))

/-- `Success` exactly when no reply is read or every check passes (R167, R202 to R206, R220); and when a call that reads a
reply succeeds, `dev.err` is the reply's error byte and RXBUF holds the reply's parameters and is as it was behind them
(R35, R139, R141). That a Write, a RegisterWrite or a Reset succeeds on a reply with length byte 2, so without parameters, is
the spec's decision D9 (`replyLen`, R168, log 19). -/
def Obligations.SuccessExactly : Prop :=
  ∀ (i : Instr) (s : State), s.cfg.legal = true → admissible i s = true → bufferInPlace i s = true →
    transportServes i s = true →
    ∃ t, exec i s = .next t ∧
      (t.result = .success ↔
        readsReply i = false ∨
          ∃ k, markerAt s.cfg.scanBound s.pollAt k ∧ s.pollAt (k + 1) = Config.marker ∧
            (s.pollAt (k + 2) = targetOf i ∨ targetOf i = Config.broadcastId) ∧
            (s.pollAt (k + 3)).toNat = replyLen i + Config.lenOverhead ∧
            s.pollAt (k + 5 + replyLen i) =
              not8 (sum8 ((List.range (replyLen i + 3)).map fun j => s.pollAt (k + 2 + j)))) ∧
      ∀ k, readsReply i = true → t.result = .success → markerAt s.cfg.scanBound s.pollAt k →
        t.devErr = s.pollAt (k + 4) ∧
          t.rxbuf = ((List.range (replyLen i)).map fun j => s.pollAt (k + 5 + j)) ++ s.rxbuf.drop (replyLen i)

/-- The verdict rests on the polled bytes alone: whatever stands behind the last byte polled, the parser says the same, and
what was wrong first is what it reports (R207, R208). -/
def Obligations.VerdictRestsOnPolledBytes : Prop :=
  ∀ (bound : Nat) (e : Byte) (n : Nat) (p q : Nat → Byte),
    (∀ k, k < (parseStatus bound e n p).polls → q k = p k) → parseStatus bound e n q = parseStatus bound e n p

/-- A reply whose parameters lost one byte, its length byte intact, is accepted exactly when the poll after the old checksum
returns the lost byte (R244 b); otherwise it is `ChecksumMismatch`. -/
def Obligations.LostByteFalseAcceptance : Prop :=
  ∀ (bound : Nat) (id err x lost : Byte) (front back : List Byte) (p : Nat → Byte), 1 ≤ bound →
    front.length + 1 + back.length ≤ Config.maxParam →
    (∀ k b, (header id (lengthByte (front.length + 1 + back.length)) err ++ (front ++ back) ++
        [checksum (id :: lengthByte (front.length + 1 + back.length) :: err :: (front ++ lost :: back)), x])[k]? =
          some b → p k = b) →
      (parseStatus bound id (front.length + 1 + back.length) p).result =
        if x = lost then .success else .checksumMismatch

/-- The exits of a call that reads a reply (R209): the number of polls and what ACC, ERR_STAGE and DIR hold, per exit, where
the first marker is found at poll `k`, counted from 0; SCAN_CNT is the number of polls of the scan, `k + 1` (R24, R134). At the
two exits that polled the whole reply the number of polls and the bytes of the sum take its parameter count from `replyLen`
(R168), which is 0 for a Write, a RegisterWrite and a Reset by the spec's decision D9 (log 19). ERR_STAGE is the spec's decision
D6 (log 11). -/
def Obligations.ExitStates : Prop :=
  ∀ (i : Instr) (op : Op) (s : State) (k : Nat), s.cfg.legal = true → admissible i s = true →
    bufferInPlace i s = true → transportServes i s = true → operationOf i = some op → readsReply i = true → markerAt s.cfg.scanBound s.pollAt k →
      ∃ t, exec i s = .next t ∧ t.dir = .receive ∧ t.scanCnt = k + 1 ∧
        (t.result = .frameMalformed → (polledBytes t.trace).length = k + 2 ∧ t.errStage = s.errStage ∧
          t.acc = sum8 (targetOf i :: lengthByte (paramsOf i).length :: s.cfg.code op :: paramsOf i)) ∧
        (t.result = .idMismatch → (polledBytes t.trace).length = k + 3 ∧ t.errStage = s.errStage ∧
          t.acc = s.pollAt (k + 2)) ∧
        (t.result = .lengthMismatch → (polledBytes t.trace).length = k + 4 ∧ t.errStage = s.errStage ∧
          t.acc = s.pollAt (k + 2) + s.pollAt (k + 3)) ∧
        (t.result = .checksumMismatch ∨ t.result = .success →
          (polledBytes t.trace).length = k + 6 + replyLen i ∧ t.errStage = s.pollAt (k + 4) ∧
          t.acc = sum8 ((List.range (replyLen i + 3)).map fun j => s.pollAt (k + 2 + j)))

/-- The exit of a call whose scan finds no marker (R209): SCAN_BOUND polls, counted by SCAN_CNT (R24, R134), ACC the writer's sum,
ERR_STAGE (the spec's decision D6, log 11) and `dev.err` as they were, DIR receive. -/
def Obligations.FrameNotFoundExit : Prop :=
  ∀ (i : Instr) (op : Op) (s : State), s.cfg.legal = true → admissible i s = true →
    bufferInPlace i s = true → transportServes i s = true → operationOf i = some op → readsReply i = true →
    (∀ k, k < s.cfg.scanBound → s.pollAt k ≠ Config.marker) →
      ∃ t, exec i s = .next t ∧ t.phase = .idle ∧ t.result = .frameNotFound ∧ t.dir = .receive ∧
        (polledBytes t.trace).length = s.cfg.scanBound ∧ t.scanCnt = s.cfg.scanBound ∧
        t.errStage = s.errStage ∧ t.devErr = s.devErr ∧
        t.acc = sum8 (targetOf i :: lengthByte (paramsOf i).length :: s.cfg.code op :: paramsOf i)

/-! ## Frames -/

/-- What a call leaves alone, wherever it gets to: what the host owns, the latches of operands it has not, and RXBUF behind
the reply it asks for (R26, R31, R34, R35, R168, R171). The model's choices in it: which latches each call writes and which it
leaves, for every call (log 15; Action writes no expected length); the expected length 0 of Write, RegisterWrite and Reset, which
is the spec's decision D9 (log 19; that of Ping and of Read is the source's); the fields `lTx` and `txTouched`, the model's own,
which only a Write and a RegisterWrite touch (R34, R70, log 10); a failed reply leaves RXBUF behind its length as it was
(log 9). -/
def Obligations.CallFrame : Prop :=
  ∀ (i : Instr) (s t : State), i.format = .cmd → exec i s = .next t →
    HostUntouched s t ∧ t.presented = s.presented ∧ t.resetReq = s.resetReq ∧ t.lId = targetOf i ∧
      some t.lOp = operationOf i ∧ ReplyTailUntouched (replyLen i) s t ∧
      match i with
      | .read _ address length =>
        t.lAddr = address ∧ t.lLen = length ∧ t.lExpLen = length ∧ t.lN = s.lN ∧ t.lTx = s.lTx ∧
          t.txTouched = s.txTouched
      | .write _ address buffer =>
        t.lAddr = address ∧ t.lN.toNat = buffer.length ∧ t.lExpLen = 0 ∧ t.lTx = buffer ∧ t.lLen = s.lLen
      | .regWrite _ address buffer =>
        t.lAddr = address ∧ t.lN.toNat = buffer.length ∧ t.lExpLen = 0 ∧ t.lTx = buffer ∧ t.lLen = s.lLen
      | .action _ =>
        t.lExpLen = s.lExpLen ∧ t.lAddr = s.lAddr ∧ t.lLen = s.lLen ∧ t.lN = s.lN ∧ t.lTx = s.lTx ∧
          t.txTouched = s.txTouched
      | _ =>
        t.lExpLen = 0 ∧ t.lAddr = s.lAddr ∧ t.lLen = s.lLen ∧ t.lN = s.lN ∧ t.lTx = s.lTx ∧
          t.txTouched = s.txTouched

/-- What a step that goes on from a phase leaves alone, be it a waiting call that is resumed or an idle block: what the host
owns, the latches, RXBUF behind the expected reply; and, in a call that reads no reply, the whole receive path (R26, R35,
R117, R170). The model's choices in it: `lTx` and `txTouched` are fields of its own, and what it keeps in mind of a change of
TXBUF is what it finds when it begins (R34, R70, log 10); a failed reply leaves RXBUF behind its length as it was (log 9). -/
def Obligations.ResumeFrame : Prop :=
  ∀ s t : State, ControlInv s → s.resetReq = false → s.presented = false → step s = .next t →
    HostUntouched s t ∧ t.presented = false ∧ t.resetReq = false ∧ LatchesKept s t ∧
      t.txTouched = s.watched.txTouched ∧ ReplyTailUntouched s.expLen s t ∧
      (replyExpected s.lOp s.lId = false →
        t.rxbuf = s.rxbuf ∧ t.devErr = s.devErr ∧ t.errStage = s.errStage ∧ t.scanCnt = s.scanCnt ∧
          t.rxAnswers = s.rxAnswers ∧ t.busyAnswers = s.busyAnswers)

/-- A call that reads no reply touches nothing of the receive path, wherever it gets to (R117, R170): RXBUF, `dev.err`,
ERR_STAGE, SCAN_CNT, the receiver and the drain query are as they were, and its trace has no event but `Dir(T)` and
sends. -/
def Obligations.NoReplyFrame : Prop :=
  ∀ (i : Instr) (s t : State), i.format = .cmd → readsReply i = false → exec i s = .next t →
    t.rxbuf = s.rxbuf ∧ t.devErr = s.devErr ∧ t.errStage = s.errStage ∧ t.scanCnt = s.scanCnt ∧
      t.rxAnswers = s.rxAnswers ∧ t.busyAnswers = s.busyAnswers ∧ Sending t.trace

/-- No step writes what only the host writes (R31, R34, R171), nor the parameters (R38, log 27). -/
def Obligations.HostStateNeverWritten : Prop :=
  ∀ s t : State, step s = .next t → HostUntouched s t

/-- `dev.err` is written in one place only: by a call that ends with `Success`, with the staged error byte (R32, R141; the
staging is the spec's decision D6, log 11). -/
def Obligations.DevErrOnlyOnSuccess : Prop :=
  ∀ s t : State, step s = .next t →
    t.devErr = s.devErr ∨
      (t.result = .success ∧ t.devErr = t.errStage ∧ (t.phase = .idle ∨ t.phase = .done))

/-! ## Admission and the host port -/

/-- Every legal call is accepted, every other refused (R33, R169, R221; D10, D11 and the capacity of RXBUF, log 8); no call
faults. -/
def Obligations.AdmissionExactly : Prop :=
  ∀ (i : Instr) (s : State), i.format = .cmd →
    ((∃ t, exec i s = .next t) ↔ admissible i s = true) ∧
      ((∃ r, exec i s = .refused r) ↔ admissible i s = false)

/-- A call presented while another is under way is not admitted (R169, R215). -/
def Obligations.BusyPortRefuses : Prop :=
  ∀ (i : Instr) (s : State), i.format = .cmd → s.phase ≠ .idle → exec i s = .refused .portBusy

/-- A step runs the call the host presents: what its record, `dev.id` and TXBUF decode to, with the request taken; where none
is presented the block goes on from its phase (R33, R40, log 17). -/
def Obligations.StepRunsFetchedCall : Prop :=
  ∀ (i : Instr) (s : State), s.resetReq = false →
    (s.presented = true → s.fetch = .ok i → step s = exec i { s with presented := false }) ∧
    (s.presented = false → step s = .next (proceed s))

/-- What a record decodes to is a legal call of the record's operation byte, handle and operands (R33, R94, D2). -/
def Obligations.FetchedCallIsTheRecord : Prop :=
  ∀ (i : Instr) (s : State), s.fetch = .ok i →
    i.format = .cmd ∧ i.wellFormed = true ∧ targetOf i = s.devId ∧
      (∃ op, operationOf i = some op ∧ s.cfg.code op = s.callOp) ∧ bufferInPlace i s = true ∧
      match i with
      | .read _ address length => address = s.callAddr ∧ length = s.callLen
      | .write _ address _ => address = s.callAddr
      | .regWrite _ address _ => address = s.callAddr
      | _ => True

/-- Every legal call can be presented: placed at the host port, the next step runs it (R40, log 17). -/
def Obligations.PlacedCallRuns : Prop :=
  ∀ (i : Instr) (s : State), s.cfg.legal = true → i.format = .cmd → i.wellFormed = true →
    step (s.place i) = exec i (s.place i).takeRequest

/-- A presented record that is no legal call is refused by name, whatever the phase (R169, R31, R33, R94, V66; the spec's
decisions D2, D10, D11, log 8): an operation byte outside the six, the id 255, a Read length above 253, more than 252 data
bytes; and a legal record is refused while a call is under way (R215). -/
def Obligations.IllegalRecordRefused : Prop :=
  ∀ s : State, s.cfg.legal = true → s.resetReq = false → s.presented = true →
    ((∀ op : Op, s.cfg.code op ≠ s.callOp) → step s = .refused (.unknownOperation s.callOp)) ∧
    (∀ op : Op, s.callOp = s.cfg.code op → s.devId = 255 → step s = .refused .idReserved) ∧
    (s.callOp = s.cfg.code .read → s.devId ≠ 255 → 253 < s.callLen.toNat → step s = .refused .replyTooLong) ∧
    (s.callOp = s.cfg.code .write ∨ s.callOp = s.cfg.code .regWrite → s.devId ≠ 255 → 252 < s.txbuf.length →
      step s = .refused .bufferTooLong) ∧
    (∀ i : Instr, s.fetch = .ok i → s.phase ≠ .idle → step s = .refused .portBusy)

/-! ## The sequencer -/

/-- One phase performs one transport operation: the event each phase adds to the trace (R27, R52, R172; phase names and
granularity are the spec's decision D25, log 1). -/
def Obligations.OneOperationPerPhase : Prop :=
  ∀ s t : State, tick s = .moves t →
    t.trace = s.trace ++
      [match s.phase with
        | .wDir => Event.dir .transmit
        | .wMark0 => Event.tx Config.marker
        | .wMark1 => Event.tx Config.marker
        | .wId => Event.tx s.lId
        | .wLen => Event.tx (lengthByte s.paramCount)
        | .wInstr => Event.tx (s.cfg.code s.lOp)
        | .wParam i => Event.tx (s.paramByte i)
        | .wChk => Event.tx (not8 s.acc)
        | .rDrain => Event.busy false
        | .rDir => Event.dir .receive
        | _ => Event.rx s.pollByte]

/-- The transitions of a call, where the block moves on, and RESULT, which is written at the transition into `DONE` and nowhere
else (R172, R28, R29). Phase names and granularity are the spec's decision D25 (log 1); PIDX is apart from the number of the
parameter in the packet, which `W_PARAM(i)` carries (log 14). -/
def Obligations.PhaseTransitions : Prop :=
  ∀ s t : State, tick s = .moves t →
    t.phase =
      (match s.phase with
        | .idle => .idle
        | .wDir => .wMark0
        | .wMark0 => .wMark1
        | .wMark1 => .wId
        | .wId => .wLen
        | .wLen => .wInstr
        | .wInstr => if 0 < s.paramCount then .wParam 0 else .wChk
        | .wParam i => if i + 1 < s.paramCount then .wParam (i + 1) else .wChk
        | .wChk => if replyExpected s.lOp s.lId then .rDrain else .done
        | .rDrain => .rDir
        | .rDir => .rScan
        | .rScan =>
          if s.pollByte = Config.marker then .rMark2
          else if s.scanCnt + 1 < s.cfg.scanBound then .rScan else .done
        | .rMark2 => if s.pollByte = Config.marker then .rId else .done
        | .rId => if s.pollByte = s.lId ∨ s.lId = Config.broadcastId then .rLen else .done
        | .rLen => if s.pollByte.toNat = s.expLen + Config.lenOverhead then .rErr else .done
        | .rErr => if 0 < s.expLen then .rParam 0 else .rChk
        | .rParam i => if i + 1 < s.expLen then .rParam (i + 1) else .rChk
        | .rChk => .done
        | .done => .idle) ∧
    t.result =
      if t.phase = .done then
        match s.phase with
        | .wChk => .success
        | .rScan => .frameNotFound
        | .rMark2 => .frameMalformed
        | .rId => .idMismatch
        | .rLen => .lengthMismatch
        | .rChk => if s.pollByte = not8 s.acc then .success else .checksumMismatch
        | _ => s.result
      else s.result

/-- A send the transport does not accept: the block stays in its phase, nothing is sent, and every field is as it was (R54,
R116, the spec's decision D17), but that the transport's answer is used up (log 2) and that a change of TXBUF, had the host
made one, is kept in mind (`State.watched`, log 10). -/
def Obligations.SendWaits : Prop :=
  ∀ (s : State) (rest : List Bool), s.resetReq = false → s.presented = false → s.sendAnswers = false :: rest →
    s.phase.writes = true → s.phase ≠ .wDir → step s = .next { s.watched with sendAnswers := rest }

/-- The drain wait (R132, R133, R67; at least one query by the spec's decision D26): while the transport answers busy the
block asks again and nothing else happens; at the first "not busy" it switches to receive and reads the reply. That one step
then runs through the whole reply to the return of the call is the model's merged step (log 1, D25); the free bytes a failed
reply leaves in RXBUF are log 9, what PIDX holds after its loop is log 14. -/
def Obligations.DrainWait : Prop :=
  ∀ (s : State) (rest : List Bool), s.cfg.legal = true → s.resetReq = false → s.presented = false →
    s.phase = .rDrain →
    (s.busyAnswers = true :: rest →
      step s = .next { s with trace := s.trace ++ [.busy true], busyAnswers := rest }) ∧
    (s.busyAnswers = false :: rest → s.expLen ≤ s.rxbuf.length → step s = .next s.turnedAround.replyRead)

/-- A step leaves a call unfinished only where it waits for the transport: to accept a byte, or in the drain wait (R241, R116,
R132). That a step does not end elsewhere, where the spec's step ends after every transport operation, is the model's
merged step (log 1). -/
def Obligations.HangsOnlyWaiting : Prop :=
  ∀ s t : State, ControlInv s → step s = .next t →
    t.phase = .idle ∨ t.phase = .rDrain ∨ (t.phase.writes = true ∧ t.phase ≠ .wDir)

/-- Once the line is switched to receive the call ends, after at most SCAN_BOUND + 1 + 3 + expLen + 1 polls (R241). That it ends
within one step is the model's merged step (log 1). -/
def Obligations.PollsAreBounded : Prop :=
  ∀ s : State, ControlInv s → s.resetReq = false → s.presented = false → s.phase = .rDir →
    ∃ t, step s = .next t ∧ t.phase = .idle ∧
      (polledBytes t.trace).length ≤ (polledBytes s.trace).length + s.cfg.scanBound + 1 + 3 + s.expLen + 1

/-- Once accepted, a call uses its latches: a change the host makes to the record or to `dev.id` has no effect on how the block
goes on (R26, R70, the spec's decision D13). -/
def Obligations.LatchesNotRecord : Prop :=
  ∀ (s : State) (id op address length : Byte),
    proceed { s with devId := id, callOp := op, callAddr := address, callLen := length } =
      { proceed s with devId := id, callOp := op, callAddr := address, callLen := length }

/-- A call depends on its record, `dev.err`, the buffers and the transport's answers, and on nothing that was in the block
before: from any two idle states that agree on these, it has the same trace, comes to the same phase, and leaves the
same `dev.err`, RXBUF and, when it has returned, result (R39, R210). That the states agree on `draws` says that the free
answers are the same where none is listed (log 2); `cfg` are the parameters (log 27). -/
def Obligations.HistoryIrrelevant : Prop :=
  ∀ (i : Instr) (s1 s2 t1 t2 : State), i.format = .cmd → s1.cfg = s2.cfg →
    s1.devErr = s2.devErr → s1.txbuf = s2.txbuf → s1.rxbuf = s2.rxbuf → s1.sendAnswers = s2.sendAnswers →
    s1.busyAnswers = s2.busyAnswers → s1.rxAnswers = s2.rxAnswers → s1.draws = s2.draws →
    exec i s1 = .next t1 → exec i s2 = .next t2 →
      t1.trace = t2.trace ∧ t1.phase = t2.phase ∧ t1.devErr = t2.devErr ∧ t1.rxbuf = t2.rxbuf ∧
        (t1.phase = .idle → t1.result = t2.result)

/-! ## Invariants -/

/-- Half duplex and the drain fence (R65, R66, R67): the trace of a call is `Dir(T)`, sends, then, if a reply is read, busy
answers, one "not busy", one `Dir(R)`, polls; every step keeps it so, at every phase as far as the phase says. That the trace in
the state is cleared when a call is accepted and stays after its return is log 24, that the reset event leaves it is log 20. -/
def Obligations.TraceInvKept : Prop :=
  ∀ s t : State, TraceInv s → step s = .next t → TraceInv t

/-- ACC is the sum of the bytes after the markers of the one packet that is being sent or polled, and is never interleaved
(R21, R22, R66, R234; that the checksum byte is not added is the spec's decision D7, log 13). The packet's bytes are read off the
trace, which is cleared when a call is accepted (log 24). -/
def Obligations.SumInvKept : Prop :=
  ∀ s t : State, SumInv s → step s = .next t → SumInv t

/-- The parameters stay legal, SCAN_CNT and PIDX stay in range, the latches of a call stay legal, PIDX agrees with the number of
the parameter being moved (log 14), and DIR is what the phase says: the block never polls while it drives the line, and sends
only while it does (R24, R25, R26, R30, R33, R56). The model's choices in it: a step may be the reset event, after which R41
gives SCAN_CNT and PIDX the value `any`, and that they are within their ranges then is the model's choice of free values (log 3);
that RXBUF holds at least `expLen` bytes wherever a reply is read rests on the refusal of a Read whose RXBUF is smaller (log 8);
that the parameters are a field of the state which no step writes, the reset event included, is log 27. -/
def Obligations.ControlInvKept : Prop :=
  ∀ s t : State, ControlInv s → step s = .next t → ControlInv t

/-- The three invariants hold right after reset. R41 gives PHASE only: that SCAN_CNT and PIDX start within their ranges is the
model's choice of free values (log 3), that the trace starts empty is log 4, that the parameters are the defaults is
log 27. -/
def Obligations.InvariantsAtReset : Prop :=
  TraceInv State.reset ∧ SumInv State.reset ∧ ControlInv State.reset

/-! ## Reset -/

/-- The reset event (R230, R41, the spec's decision D12, log 20): the block is idle, no transport operation is performed, what
the host and the transport own is as it was. -/
def Obligations.HardReset : Prop :=
  ∀ s : State, s.resetReq = true →
    ∃ t, step s = .next t ∧ t.phase = .idle ∧ t.trace = s.trace ∧ HostUntouched s t ∧ t.devErr = s.devErr ∧
      t.rxbuf = s.rxbuf ∧ t.presented = s.presented ∧ t.sendAnswers = s.sendAnswers ∧
      t.busyAnswers = s.busyAnswers ∧ t.rxAnswers = s.rxAnswers

/-- After reset the block waits in `IDLE` and accepts every legal call (R41, R230; the buffers it then has are the model's
choice, log 4). -/
def Obligations.ResetAcceptsCalls : Prop :=
  State.reset.phase = .idle ∧
    ∀ i : Instr, i.format = .cmd → i.wellFormed = true → ∃ t, exec i State.reset = .next t

/-! ## The register convenience layer -/

/-- `widthOf` is the table, address by address (R191). -/
def Obligations.WidthTable : Prop :=
  (List.range (Config.addressMax + 1)).map (fun a => widthOf (BitVec.ofNat 8 a)) =
      [2, 0, 1, 1, 1, 1, 2, 0, 2, 0, 0, 1, 1, 1, 2, 0, 1, 1, 1, 1, 2, 0, 2, 0, 1,
       1, 1, 1, 1, 1, 2, 0, 2, 0, 2, 0, 2, 0, 2, 0, 2, 0, 1, 1, 1, 0, 1, 1, 2, 0] ∧
    ∀ a : Byte, Config.addressMax < a.toNat → widthOf a = 0

/-- `putValue` (R192): refused at width 0; else it is the Write of the value's low bytes, low byte first, and the host's
issue of it is that Write run with the bytes in TXBUF. -/
def Obligations.PutValueExpands : Prop :=
  ∀ (id address : Byte) (value : Nat) (s : State),
    (widthOf address = 0 →
      putValue id address value = .error .widthUnsupported ∧
        hostPutValue id address value s = .refused .widthUnsupported) ∧
    (widthOf address = 1 →
      putValue id address value = .ok (.write id address [lo8 value]) ∧
        hostPutValue id address value s = exec (.write id address [lo8 value]) { s with txbuf := [lo8 value] }) ∧
    (widthOf address = 2 →
      putValue id address value = .ok (.write id address [lo8 value, hi8 value]) ∧
        hostPutValue id address value s =
          exec (.write id address [lo8 value, hi8 value]) { s with txbuf := [lo8 value, hi8 value] })

/-- `getValue` (R193): refused at width 0 and on a broadcast handle; else the Read of as many bytes into a local buffer of that
size, which an idle block accepts for every legal id whatever RXBUF is; the reply of a Read that succeeds is decoded low byte
first, a failure gives no value. What the local buffer holds before is the model's free value (log 23). -/
def Obligations.GetValueDecodes : Prop :=
  ∀ (id address : Byte) (s t : State),
    (widthOf address = 0 → hostGetValue id address s = .refused .widthUnsupported) ∧
    (widthOf address ≠ 0 → id = Config.broadcastId → hostGetValue id address s = .refused .broadcastHasNoValue) ∧
    (widthOf address ≠ 0 → id ≠ Config.broadcastId →
      hostGetValue id address s =
          exec (.read id address (BitVec.ofNat 8 (widthOf address))) (s.withLocal (widthOf address)) ∧
        (s.phase = .idle → idLegal id = true → ∃ u, hostGetValue id address s = .next u)) ∧
    (t.result ≠ .success → getValueReturn address t = .noValue t.result) ∧
    (∀ (b0 : Byte) (more : List Byte), t.result = .success → widthOf address = 1 → t.rxbuf = b0 :: more →
      getValueReturn address t = .value b0.toNat) ∧
    (∀ (b0 b1 : Byte) (more : List Byte), t.result = .success → widthOf address = 2 → t.rxbuf = b0 :: b1 :: more →
      getValueReturn address t = .value (b0.toNat + 256 * b1.toNat))

/-- Coding and decoding a value little-endian gives it modulo 256 to the width (R194, R60). -/
def Obligations.LittleEndianRoundTrip : Prop :=
  ∀ w value : Nat, w ≤ 2 → littleEndianValue (littleEndian w value) = value % 256 ^ w
end

