-- ==== Sys2Proof/Laws/State.lean ====
section
/-!
SUPPORT. For each named update of the state one lemma per field, true by `rfl`: no later proof unfolds a record update.
-/
namespace Sys2Proof.Machine

variable (s : State)

/-! `State.goto` -/

@[simp] theorem State.goto_cfg (p : Phase) : (s.goto p).cfg = s.cfg := rfl
@[simp] theorem State.goto_acc (p : Phase) : (s.goto p).acc = s.acc := rfl
@[simp] theorem State.goto_errStage (p : Phase) : (s.goto p).errStage = s.errStage := rfl
@[simp] theorem State.goto_scanCnt (p : Phase) : (s.goto p).scanCnt = s.scanCnt := rfl
@[simp] theorem State.goto_pidx (p : Phase) : (s.goto p).pidx = s.pidx := rfl
@[simp] theorem State.goto_lOp (p : Phase) : (s.goto p).lOp = s.lOp := rfl
@[simp] theorem State.goto_lId (p : Phase) : (s.goto p).lId = s.lId := rfl
@[simp] theorem State.goto_lAddr (p : Phase) : (s.goto p).lAddr = s.lAddr := rfl
@[simp] theorem State.goto_lLen (p : Phase) : (s.goto p).lLen = s.lLen := rfl
@[simp] theorem State.goto_lN (p : Phase) : (s.goto p).lN = s.lN := rfl
@[simp] theorem State.goto_lExpLen (p : Phase) : (s.goto p).lExpLen = s.lExpLen := rfl
@[simp] theorem State.goto_lTx (p : Phase) : (s.goto p).lTx = s.lTx := rfl
@[simp] theorem State.goto_txTouched (p : Phase) : (s.goto p).txTouched = s.txTouched := rfl
@[simp] theorem State.goto_phase (p : Phase) : (s.goto p).phase = p := rfl
@[simp] theorem State.goto_result (p : Phase) : (s.goto p).result = s.result := rfl
@[simp] theorem State.goto_dir (p : Phase) : (s.goto p).dir = s.dir := rfl
@[simp] theorem State.goto_devId (p : Phase) : (s.goto p).devId = s.devId := rfl
@[simp] theorem State.goto_devErr (p : Phase) : (s.goto p).devErr = s.devErr := rfl
@[simp] theorem State.goto_callOp (p : Phase) : (s.goto p).callOp = s.callOp := rfl
@[simp] theorem State.goto_callAddr (p : Phase) : (s.goto p).callAddr = s.callAddr := rfl
@[simp] theorem State.goto_callLen (p : Phase) : (s.goto p).callLen = s.callLen := rfl
@[simp] theorem State.goto_presented (p : Phase) : (s.goto p).presented = s.presented := rfl
@[simp] theorem State.goto_txbuf (p : Phase) : (s.goto p).txbuf = s.txbuf := rfl
@[simp] theorem State.goto_rxbuf (p : Phase) : (s.goto p).rxbuf = s.rxbuf := rfl
@[simp] theorem State.goto_resetReq (p : Phase) : (s.goto p).resetReq = s.resetReq := rfl
@[simp] theorem State.goto_trace (p : Phase) : (s.goto p).trace = s.trace := rfl
@[simp] theorem State.goto_sendAnswers (p : Phase) : (s.goto p).sendAnswers = s.sendAnswers := rfl
@[simp] theorem State.goto_busyAnswers (p : Phase) : (s.goto p).busyAnswers = s.busyAnswers := rfl
@[simp] theorem State.goto_rxAnswers (p : Phase) : (s.goto p).rxAnswers = s.rxAnswers := rfl
@[simp] theorem State.goto_draws (p : Phase) : (s.goto p).draws = s.draws := rfl

/-! `State.log` -/

@[simp] theorem State.log_cfg (e : Event) : (s.log e).cfg = s.cfg := rfl
@[simp] theorem State.log_acc (e : Event) : (s.log e).acc = s.acc := rfl
@[simp] theorem State.log_errStage (e : Event) : (s.log e).errStage = s.errStage := rfl
@[simp] theorem State.log_scanCnt (e : Event) : (s.log e).scanCnt = s.scanCnt := rfl
@[simp] theorem State.log_pidx (e : Event) : (s.log e).pidx = s.pidx := rfl
@[simp] theorem State.log_lOp (e : Event) : (s.log e).lOp = s.lOp := rfl
@[simp] theorem State.log_lId (e : Event) : (s.log e).lId = s.lId := rfl
@[simp] theorem State.log_lAddr (e : Event) : (s.log e).lAddr = s.lAddr := rfl
@[simp] theorem State.log_lLen (e : Event) : (s.log e).lLen = s.lLen := rfl
@[simp] theorem State.log_lN (e : Event) : (s.log e).lN = s.lN := rfl
@[simp] theorem State.log_lExpLen (e : Event) : (s.log e).lExpLen = s.lExpLen := rfl
@[simp] theorem State.log_lTx (e : Event) : (s.log e).lTx = s.lTx := rfl
@[simp] theorem State.log_txTouched (e : Event) : (s.log e).txTouched = s.txTouched := rfl
@[simp] theorem State.log_phase (e : Event) : (s.log e).phase = s.phase := rfl
@[simp] theorem State.log_result (e : Event) : (s.log e).result = s.result := rfl
@[simp] theorem State.log_dir (e : Event) : (s.log e).dir = s.dir := rfl
@[simp] theorem State.log_devId (e : Event) : (s.log e).devId = s.devId := rfl
@[simp] theorem State.log_devErr (e : Event) : (s.log e).devErr = s.devErr := rfl
@[simp] theorem State.log_callOp (e : Event) : (s.log e).callOp = s.callOp := rfl
@[simp] theorem State.log_callAddr (e : Event) : (s.log e).callAddr = s.callAddr := rfl
@[simp] theorem State.log_callLen (e : Event) : (s.log e).callLen = s.callLen := rfl
@[simp] theorem State.log_presented (e : Event) : (s.log e).presented = s.presented := rfl
@[simp] theorem State.log_txbuf (e : Event) : (s.log e).txbuf = s.txbuf := rfl
@[simp] theorem State.log_rxbuf (e : Event) : (s.log e).rxbuf = s.rxbuf := rfl
@[simp] theorem State.log_resetReq (e : Event) : (s.log e).resetReq = s.resetReq := rfl
@[simp] theorem State.log_trace (e : Event) : (s.log e).trace = s.trace ++ [e] := rfl
@[simp] theorem State.log_sendAnswers (e : Event) : (s.log e).sendAnswers = s.sendAnswers := rfl
@[simp] theorem State.log_busyAnswers (e : Event) : (s.log e).busyAnswers = s.busyAnswers := rfl
@[simp] theorem State.log_rxAnswers (e : Event) : (s.log e).rxAnswers = s.rxAnswers := rfl
@[simp] theorem State.log_draws (e : Event) : (s.log e).draws = s.draws := rfl

/-! `State.setAcc` -/

@[simp] theorem State.setAcc_cfg (v : Byte) : (s.setAcc v).cfg = s.cfg := rfl
@[simp] theorem State.setAcc_acc (v : Byte) : (s.setAcc v).acc = v := rfl
@[simp] theorem State.setAcc_errStage (v : Byte) : (s.setAcc v).errStage = s.errStage := rfl
@[simp] theorem State.setAcc_scanCnt (v : Byte) : (s.setAcc v).scanCnt = s.scanCnt := rfl
@[simp] theorem State.setAcc_pidx (v : Byte) : (s.setAcc v).pidx = s.pidx := rfl
@[simp] theorem State.setAcc_lOp (v : Byte) : (s.setAcc v).lOp = s.lOp := rfl
@[simp] theorem State.setAcc_lId (v : Byte) : (s.setAcc v).lId = s.lId := rfl
@[simp] theorem State.setAcc_lAddr (v : Byte) : (s.setAcc v).lAddr = s.lAddr := rfl
@[simp] theorem State.setAcc_lLen (v : Byte) : (s.setAcc v).lLen = s.lLen := rfl
@[simp] theorem State.setAcc_lN (v : Byte) : (s.setAcc v).lN = s.lN := rfl
@[simp] theorem State.setAcc_lExpLen (v : Byte) : (s.setAcc v).lExpLen = s.lExpLen := rfl
@[simp] theorem State.setAcc_lTx (v : Byte) : (s.setAcc v).lTx = s.lTx := rfl
@[simp] theorem State.setAcc_txTouched (v : Byte) : (s.setAcc v).txTouched = s.txTouched := rfl
@[simp] theorem State.setAcc_phase (v : Byte) : (s.setAcc v).phase = s.phase := rfl
@[simp] theorem State.setAcc_result (v : Byte) : (s.setAcc v).result = s.result := rfl
@[simp] theorem State.setAcc_dir (v : Byte) : (s.setAcc v).dir = s.dir := rfl
@[simp] theorem State.setAcc_devId (v : Byte) : (s.setAcc v).devId = s.devId := rfl
@[simp] theorem State.setAcc_devErr (v : Byte) : (s.setAcc v).devErr = s.devErr := rfl
@[simp] theorem State.setAcc_callOp (v : Byte) : (s.setAcc v).callOp = s.callOp := rfl
@[simp] theorem State.setAcc_callAddr (v : Byte) : (s.setAcc v).callAddr = s.callAddr := rfl
@[simp] theorem State.setAcc_callLen (v : Byte) : (s.setAcc v).callLen = s.callLen := rfl
@[simp] theorem State.setAcc_presented (v : Byte) : (s.setAcc v).presented = s.presented := rfl
@[simp] theorem State.setAcc_txbuf (v : Byte) : (s.setAcc v).txbuf = s.txbuf := rfl
@[simp] theorem State.setAcc_rxbuf (v : Byte) : (s.setAcc v).rxbuf = s.rxbuf := rfl
@[simp] theorem State.setAcc_resetReq (v : Byte) : (s.setAcc v).resetReq = s.resetReq := rfl
@[simp] theorem State.setAcc_trace (v : Byte) : (s.setAcc v).trace = s.trace := rfl
@[simp] theorem State.setAcc_sendAnswers (v : Byte) : (s.setAcc v).sendAnswers = s.sendAnswers := rfl
@[simp] theorem State.setAcc_busyAnswers (v : Byte) : (s.setAcc v).busyAnswers = s.busyAnswers := rfl
@[simp] theorem State.setAcc_rxAnswers (v : Byte) : (s.setAcc v).rxAnswers = s.rxAnswers := rfl
@[simp] theorem State.setAcc_draws (v : Byte) : (s.setAcc v).draws = s.draws := rfl

/-! `State.addAcc` -/

@[simp] theorem State.addAcc_cfg (b : Byte) : (s.addAcc b).cfg = s.cfg := rfl
@[simp] theorem State.addAcc_acc (b : Byte) : (s.addAcc b).acc = s.acc + b := rfl
@[simp] theorem State.addAcc_errStage (b : Byte) : (s.addAcc b).errStage = s.errStage := rfl
@[simp] theorem State.addAcc_scanCnt (b : Byte) : (s.addAcc b).scanCnt = s.scanCnt := rfl
@[simp] theorem State.addAcc_pidx (b : Byte) : (s.addAcc b).pidx = s.pidx := rfl
@[simp] theorem State.addAcc_lOp (b : Byte) : (s.addAcc b).lOp = s.lOp := rfl
@[simp] theorem State.addAcc_lId (b : Byte) : (s.addAcc b).lId = s.lId := rfl
@[simp] theorem State.addAcc_lAddr (b : Byte) : (s.addAcc b).lAddr = s.lAddr := rfl
@[simp] theorem State.addAcc_lLen (b : Byte) : (s.addAcc b).lLen = s.lLen := rfl
@[simp] theorem State.addAcc_lN (b : Byte) : (s.addAcc b).lN = s.lN := rfl
@[simp] theorem State.addAcc_lExpLen (b : Byte) : (s.addAcc b).lExpLen = s.lExpLen := rfl
@[simp] theorem State.addAcc_lTx (b : Byte) : (s.addAcc b).lTx = s.lTx := rfl
@[simp] theorem State.addAcc_txTouched (b : Byte) : (s.addAcc b).txTouched = s.txTouched := rfl
@[simp] theorem State.addAcc_phase (b : Byte) : (s.addAcc b).phase = s.phase := rfl
@[simp] theorem State.addAcc_result (b : Byte) : (s.addAcc b).result = s.result := rfl
@[simp] theorem State.addAcc_dir (b : Byte) : (s.addAcc b).dir = s.dir := rfl
@[simp] theorem State.addAcc_devId (b : Byte) : (s.addAcc b).devId = s.devId := rfl
@[simp] theorem State.addAcc_devErr (b : Byte) : (s.addAcc b).devErr = s.devErr := rfl
@[simp] theorem State.addAcc_callOp (b : Byte) : (s.addAcc b).callOp = s.callOp := rfl
@[simp] theorem State.addAcc_callAddr (b : Byte) : (s.addAcc b).callAddr = s.callAddr := rfl
@[simp] theorem State.addAcc_callLen (b : Byte) : (s.addAcc b).callLen = s.callLen := rfl
@[simp] theorem State.addAcc_presented (b : Byte) : (s.addAcc b).presented = s.presented := rfl
@[simp] theorem State.addAcc_txbuf (b : Byte) : (s.addAcc b).txbuf = s.txbuf := rfl
@[simp] theorem State.addAcc_rxbuf (b : Byte) : (s.addAcc b).rxbuf = s.rxbuf := rfl
@[simp] theorem State.addAcc_resetReq (b : Byte) : (s.addAcc b).resetReq = s.resetReq := rfl
@[simp] theorem State.addAcc_trace (b : Byte) : (s.addAcc b).trace = s.trace := rfl
@[simp] theorem State.addAcc_sendAnswers (b : Byte) : (s.addAcc b).sendAnswers = s.sendAnswers := rfl
@[simp] theorem State.addAcc_busyAnswers (b : Byte) : (s.addAcc b).busyAnswers = s.busyAnswers := rfl
@[simp] theorem State.addAcc_rxAnswers (b : Byte) : (s.addAcc b).rxAnswers = s.rxAnswers := rfl
@[simp] theorem State.addAcc_draws (b : Byte) : (s.addAcc b).draws = s.draws := rfl

/-! `State.setPidx` -/

@[simp] theorem State.setPidx_cfg (i : Nat) : (s.setPidx i).cfg = s.cfg := rfl
@[simp] theorem State.setPidx_acc (i : Nat) : (s.setPidx i).acc = s.acc := rfl
@[simp] theorem State.setPidx_errStage (i : Nat) : (s.setPidx i).errStage = s.errStage := rfl
@[simp] theorem State.setPidx_scanCnt (i : Nat) : (s.setPidx i).scanCnt = s.scanCnt := rfl
@[simp] theorem State.setPidx_pidx (i : Nat) : (s.setPidx i).pidx = i := rfl
@[simp] theorem State.setPidx_lOp (i : Nat) : (s.setPidx i).lOp = s.lOp := rfl
@[simp] theorem State.setPidx_lId (i : Nat) : (s.setPidx i).lId = s.lId := rfl
@[simp] theorem State.setPidx_lAddr (i : Nat) : (s.setPidx i).lAddr = s.lAddr := rfl
@[simp] theorem State.setPidx_lLen (i : Nat) : (s.setPidx i).lLen = s.lLen := rfl
@[simp] theorem State.setPidx_lN (i : Nat) : (s.setPidx i).lN = s.lN := rfl
@[simp] theorem State.setPidx_lExpLen (i : Nat) : (s.setPidx i).lExpLen = s.lExpLen := rfl
@[simp] theorem State.setPidx_lTx (i : Nat) : (s.setPidx i).lTx = s.lTx := rfl
@[simp] theorem State.setPidx_txTouched (i : Nat) : (s.setPidx i).txTouched = s.txTouched := rfl
@[simp] theorem State.setPidx_phase (i : Nat) : (s.setPidx i).phase = s.phase := rfl
@[simp] theorem State.setPidx_result (i : Nat) : (s.setPidx i).result = s.result := rfl
@[simp] theorem State.setPidx_dir (i : Nat) : (s.setPidx i).dir = s.dir := rfl
@[simp] theorem State.setPidx_devId (i : Nat) : (s.setPidx i).devId = s.devId := rfl
@[simp] theorem State.setPidx_devErr (i : Nat) : (s.setPidx i).devErr = s.devErr := rfl
@[simp] theorem State.setPidx_callOp (i : Nat) : (s.setPidx i).callOp = s.callOp := rfl
@[simp] theorem State.setPidx_callAddr (i : Nat) : (s.setPidx i).callAddr = s.callAddr := rfl
@[simp] theorem State.setPidx_callLen (i : Nat) : (s.setPidx i).callLen = s.callLen := rfl
@[simp] theorem State.setPidx_presented (i : Nat) : (s.setPidx i).presented = s.presented := rfl
@[simp] theorem State.setPidx_txbuf (i : Nat) : (s.setPidx i).txbuf = s.txbuf := rfl
@[simp] theorem State.setPidx_rxbuf (i : Nat) : (s.setPidx i).rxbuf = s.rxbuf := rfl
@[simp] theorem State.setPidx_resetReq (i : Nat) : (s.setPidx i).resetReq = s.resetReq := rfl
@[simp] theorem State.setPidx_trace (i : Nat) : (s.setPidx i).trace = s.trace := rfl
@[simp] theorem State.setPidx_sendAnswers (i : Nat) : (s.setPidx i).sendAnswers = s.sendAnswers := rfl
@[simp] theorem State.setPidx_busyAnswers (i : Nat) : (s.setPidx i).busyAnswers = s.busyAnswers := rfl
@[simp] theorem State.setPidx_rxAnswers (i : Nat) : (s.setPidx i).rxAnswers = s.rxAnswers := rfl
@[simp] theorem State.setPidx_draws (i : Nat) : (s.setPidx i).draws = s.draws := rfl

/-! `State.setScanCnt` -/

@[simp] theorem State.setScanCnt_cfg (n : Nat) : (s.setScanCnt n).cfg = s.cfg := rfl
@[simp] theorem State.setScanCnt_acc (n : Nat) : (s.setScanCnt n).acc = s.acc := rfl
@[simp] theorem State.setScanCnt_errStage (n : Nat) : (s.setScanCnt n).errStage = s.errStage := rfl
@[simp] theorem State.setScanCnt_scanCnt (n : Nat) : (s.setScanCnt n).scanCnt = n := rfl
@[simp] theorem State.setScanCnt_pidx (n : Nat) : (s.setScanCnt n).pidx = s.pidx := rfl
@[simp] theorem State.setScanCnt_lOp (n : Nat) : (s.setScanCnt n).lOp = s.lOp := rfl
@[simp] theorem State.setScanCnt_lId (n : Nat) : (s.setScanCnt n).lId = s.lId := rfl
@[simp] theorem State.setScanCnt_lAddr (n : Nat) : (s.setScanCnt n).lAddr = s.lAddr := rfl
@[simp] theorem State.setScanCnt_lLen (n : Nat) : (s.setScanCnt n).lLen = s.lLen := rfl
@[simp] theorem State.setScanCnt_lN (n : Nat) : (s.setScanCnt n).lN = s.lN := rfl
@[simp] theorem State.setScanCnt_lExpLen (n : Nat) : (s.setScanCnt n).lExpLen = s.lExpLen := rfl
@[simp] theorem State.setScanCnt_lTx (n : Nat) : (s.setScanCnt n).lTx = s.lTx := rfl
@[simp] theorem State.setScanCnt_txTouched (n : Nat) : (s.setScanCnt n).txTouched = s.txTouched := rfl
@[simp] theorem State.setScanCnt_phase (n : Nat) : (s.setScanCnt n).phase = s.phase := rfl
@[simp] theorem State.setScanCnt_result (n : Nat) : (s.setScanCnt n).result = s.result := rfl
@[simp] theorem State.setScanCnt_dir (n : Nat) : (s.setScanCnt n).dir = s.dir := rfl
@[simp] theorem State.setScanCnt_devId (n : Nat) : (s.setScanCnt n).devId = s.devId := rfl
@[simp] theorem State.setScanCnt_devErr (n : Nat) : (s.setScanCnt n).devErr = s.devErr := rfl
@[simp] theorem State.setScanCnt_callOp (n : Nat) : (s.setScanCnt n).callOp = s.callOp := rfl
@[simp] theorem State.setScanCnt_callAddr (n : Nat) : (s.setScanCnt n).callAddr = s.callAddr := rfl
@[simp] theorem State.setScanCnt_callLen (n : Nat) : (s.setScanCnt n).callLen = s.callLen := rfl
@[simp] theorem State.setScanCnt_presented (n : Nat) : (s.setScanCnt n).presented = s.presented := rfl
@[simp] theorem State.setScanCnt_txbuf (n : Nat) : (s.setScanCnt n).txbuf = s.txbuf := rfl
@[simp] theorem State.setScanCnt_rxbuf (n : Nat) : (s.setScanCnt n).rxbuf = s.rxbuf := rfl
@[simp] theorem State.setScanCnt_resetReq (n : Nat) : (s.setScanCnt n).resetReq = s.resetReq := rfl
@[simp] theorem State.setScanCnt_trace (n : Nat) : (s.setScanCnt n).trace = s.trace := rfl
@[simp] theorem State.setScanCnt_sendAnswers (n : Nat) : (s.setScanCnt n).sendAnswers = s.sendAnswers := rfl
@[simp] theorem State.setScanCnt_busyAnswers (n : Nat) : (s.setScanCnt n).busyAnswers = s.busyAnswers := rfl
@[simp] theorem State.setScanCnt_rxAnswers (n : Nat) : (s.setScanCnt n).rxAnswers = s.rxAnswers := rfl
@[simp] theorem State.setScanCnt_draws (n : Nat) : (s.setScanCnt n).draws = s.draws := rfl

/-! `State.setErrStage` -/

@[simp] theorem State.setErrStage_cfg (b : Byte) : (s.setErrStage b).cfg = s.cfg := rfl
@[simp] theorem State.setErrStage_acc (b : Byte) : (s.setErrStage b).acc = s.acc := rfl
@[simp] theorem State.setErrStage_errStage (b : Byte) : (s.setErrStage b).errStage = b := rfl
@[simp] theorem State.setErrStage_scanCnt (b : Byte) : (s.setErrStage b).scanCnt = s.scanCnt := rfl
@[simp] theorem State.setErrStage_pidx (b : Byte) : (s.setErrStage b).pidx = s.pidx := rfl
@[simp] theorem State.setErrStage_lOp (b : Byte) : (s.setErrStage b).lOp = s.lOp := rfl
@[simp] theorem State.setErrStage_lId (b : Byte) : (s.setErrStage b).lId = s.lId := rfl
@[simp] theorem State.setErrStage_lAddr (b : Byte) : (s.setErrStage b).lAddr = s.lAddr := rfl
@[simp] theorem State.setErrStage_lLen (b : Byte) : (s.setErrStage b).lLen = s.lLen := rfl
@[simp] theorem State.setErrStage_lN (b : Byte) : (s.setErrStage b).lN = s.lN := rfl
@[simp] theorem State.setErrStage_lExpLen (b : Byte) : (s.setErrStage b).lExpLen = s.lExpLen := rfl
@[simp] theorem State.setErrStage_lTx (b : Byte) : (s.setErrStage b).lTx = s.lTx := rfl
@[simp] theorem State.setErrStage_txTouched (b : Byte) : (s.setErrStage b).txTouched = s.txTouched := rfl
@[simp] theorem State.setErrStage_phase (b : Byte) : (s.setErrStage b).phase = s.phase := rfl
@[simp] theorem State.setErrStage_result (b : Byte) : (s.setErrStage b).result = s.result := rfl
@[simp] theorem State.setErrStage_dir (b : Byte) : (s.setErrStage b).dir = s.dir := rfl
@[simp] theorem State.setErrStage_devId (b : Byte) : (s.setErrStage b).devId = s.devId := rfl
@[simp] theorem State.setErrStage_devErr (b : Byte) : (s.setErrStage b).devErr = s.devErr := rfl
@[simp] theorem State.setErrStage_callOp (b : Byte) : (s.setErrStage b).callOp = s.callOp := rfl
@[simp] theorem State.setErrStage_callAddr (b : Byte) : (s.setErrStage b).callAddr = s.callAddr := rfl
@[simp] theorem State.setErrStage_callLen (b : Byte) : (s.setErrStage b).callLen = s.callLen := rfl
@[simp] theorem State.setErrStage_presented (b : Byte) : (s.setErrStage b).presented = s.presented := rfl
@[simp] theorem State.setErrStage_txbuf (b : Byte) : (s.setErrStage b).txbuf = s.txbuf := rfl
@[simp] theorem State.setErrStage_rxbuf (b : Byte) : (s.setErrStage b).rxbuf = s.rxbuf := rfl
@[simp] theorem State.setErrStage_resetReq (b : Byte) : (s.setErrStage b).resetReq = s.resetReq := rfl
@[simp] theorem State.setErrStage_trace (b : Byte) : (s.setErrStage b).trace = s.trace := rfl
@[simp] theorem State.setErrStage_sendAnswers (b : Byte) : (s.setErrStage b).sendAnswers = s.sendAnswers := rfl
@[simp] theorem State.setErrStage_busyAnswers (b : Byte) : (s.setErrStage b).busyAnswers = s.busyAnswers := rfl
@[simp] theorem State.setErrStage_rxAnswers (b : Byte) : (s.setErrStage b).rxAnswers = s.rxAnswers := rfl
@[simp] theorem State.setErrStage_draws (b : Byte) : (s.setErrStage b).draws = s.draws := rfl

/-! `State.putReply` -/

@[simp] theorem State.putReply_cfg (i : Nat) (b : Byte) : (s.putReply i b).cfg = s.cfg := rfl
@[simp] theorem State.putReply_acc (i : Nat) (b : Byte) : (s.putReply i b).acc = s.acc := rfl
@[simp] theorem State.putReply_errStage (i : Nat) (b : Byte) : (s.putReply i b).errStage = s.errStage := rfl
@[simp] theorem State.putReply_scanCnt (i : Nat) (b : Byte) : (s.putReply i b).scanCnt = s.scanCnt := rfl
@[simp] theorem State.putReply_pidx (i : Nat) (b : Byte) : (s.putReply i b).pidx = s.pidx := rfl
@[simp] theorem State.putReply_lOp (i : Nat) (b : Byte) : (s.putReply i b).lOp = s.lOp := rfl
@[simp] theorem State.putReply_lId (i : Nat) (b : Byte) : (s.putReply i b).lId = s.lId := rfl
@[simp] theorem State.putReply_lAddr (i : Nat) (b : Byte) : (s.putReply i b).lAddr = s.lAddr := rfl
@[simp] theorem State.putReply_lLen (i : Nat) (b : Byte) : (s.putReply i b).lLen = s.lLen := rfl
@[simp] theorem State.putReply_lN (i : Nat) (b : Byte) : (s.putReply i b).lN = s.lN := rfl
@[simp] theorem State.putReply_lExpLen (i : Nat) (b : Byte) : (s.putReply i b).lExpLen = s.lExpLen := rfl
@[simp] theorem State.putReply_lTx (i : Nat) (b : Byte) : (s.putReply i b).lTx = s.lTx := rfl
@[simp] theorem State.putReply_txTouched (i : Nat) (b : Byte) : (s.putReply i b).txTouched = s.txTouched := rfl
@[simp] theorem State.putReply_phase (i : Nat) (b : Byte) : (s.putReply i b).phase = s.phase := rfl
@[simp] theorem State.putReply_result (i : Nat) (b : Byte) : (s.putReply i b).result = s.result := rfl
@[simp] theorem State.putReply_dir (i : Nat) (b : Byte) : (s.putReply i b).dir = s.dir := rfl
@[simp] theorem State.putReply_devId (i : Nat) (b : Byte) : (s.putReply i b).devId = s.devId := rfl
@[simp] theorem State.putReply_devErr (i : Nat) (b : Byte) : (s.putReply i b).devErr = s.devErr := rfl
@[simp] theorem State.putReply_callOp (i : Nat) (b : Byte) : (s.putReply i b).callOp = s.callOp := rfl
@[simp] theorem State.putReply_callAddr (i : Nat) (b : Byte) : (s.putReply i b).callAddr = s.callAddr := rfl
@[simp] theorem State.putReply_callLen (i : Nat) (b : Byte) : (s.putReply i b).callLen = s.callLen := rfl
@[simp] theorem State.putReply_presented (i : Nat) (b : Byte) : (s.putReply i b).presented = s.presented := rfl
@[simp] theorem State.putReply_txbuf (i : Nat) (b : Byte) : (s.putReply i b).txbuf = s.txbuf := rfl
@[simp] theorem State.putReply_rxbuf (i : Nat) (b : Byte) : (s.putReply i b).rxbuf = s.rxbuf.set i b := rfl
@[simp] theorem State.putReply_resetReq (i : Nat) (b : Byte) : (s.putReply i b).resetReq = s.resetReq := rfl
@[simp] theorem State.putReply_trace (i : Nat) (b : Byte) : (s.putReply i b).trace = s.trace := rfl
@[simp] theorem State.putReply_sendAnswers (i : Nat) (b : Byte) : (s.putReply i b).sendAnswers = s.sendAnswers := rfl
@[simp] theorem State.putReply_busyAnswers (i : Nat) (b : Byte) : (s.putReply i b).busyAnswers = s.busyAnswers := rfl
@[simp] theorem State.putReply_rxAnswers (i : Nat) (b : Byte) : (s.putReply i b).rxAnswers = s.rxAnswers := rfl
@[simp] theorem State.putReply_draws (i : Nat) (b : Byte) : (s.putReply i b).draws = s.draws := rfl

/-! `State.hardReset` -/

@[simp] theorem State.hardReset_cfg : (s.hardReset).cfg = s.cfg := rfl
@[simp] theorem State.hardReset_acc : (s.hardReset).acc = Config.freeByte s.draws := rfl
@[simp] theorem State.hardReset_errStage : (s.hardReset).errStage = Config.freeByte (s.draws + 1) := rfl
@[simp] theorem State.hardReset_scanCnt : (s.hardReset).scanCnt = Config.freeCount s.draws % (s.cfg.scanBound + 1) := rfl
@[simp] theorem State.hardReset_pidx : (s.hardReset).pidx = Config.freeCount (s.draws + 1) % (Config.maxParam + 1) := rfl
@[simp] theorem State.hardReset_lOp : (s.hardReset).lOp = Config.freeOp s.draws := rfl
@[simp] theorem State.hardReset_lId : (s.hardReset).lId = Config.freeByte (s.draws + 2) := rfl
@[simp] theorem State.hardReset_lAddr : (s.hardReset).lAddr = Config.freeByte (s.draws + 3) := rfl
@[simp] theorem State.hardReset_lLen : (s.hardReset).lLen = Config.freeByte (s.draws + 4) := rfl
@[simp] theorem State.hardReset_lN : (s.hardReset).lN = Config.freeByte (s.draws + 5) := rfl
@[simp] theorem State.hardReset_lExpLen : (s.hardReset).lExpLen = Config.freeByte (s.draws + 6) := rfl
@[simp] theorem State.hardReset_lTx : (s.hardReset).lTx = s.lTx := rfl
@[simp] theorem State.hardReset_txTouched : (s.hardReset).txTouched = s.txTouched := rfl
@[simp] theorem State.hardReset_phase : (s.hardReset).phase = .idle := rfl
@[simp] theorem State.hardReset_result : (s.hardReset).result = Config.freeResult s.draws := rfl
@[simp] theorem State.hardReset_dir : (s.hardReset).dir = Config.freeDir s.draws := rfl
@[simp] theorem State.hardReset_devId : (s.hardReset).devId = s.devId := rfl
@[simp] theorem State.hardReset_devErr : (s.hardReset).devErr = s.devErr := rfl
@[simp] theorem State.hardReset_callOp : (s.hardReset).callOp = s.callOp := rfl
@[simp] theorem State.hardReset_callAddr : (s.hardReset).callAddr = s.callAddr := rfl
@[simp] theorem State.hardReset_callLen : (s.hardReset).callLen = s.callLen := rfl
@[simp] theorem State.hardReset_presented : (s.hardReset).presented = s.presented := rfl
@[simp] theorem State.hardReset_txbuf : (s.hardReset).txbuf = s.txbuf := rfl
@[simp] theorem State.hardReset_rxbuf : (s.hardReset).rxbuf = s.rxbuf := rfl
@[simp] theorem State.hardReset_resetReq : (s.hardReset).resetReq = false := rfl
@[simp] theorem State.hardReset_trace : (s.hardReset).trace = s.trace := rfl
@[simp] theorem State.hardReset_sendAnswers : (s.hardReset).sendAnswers = s.sendAnswers := rfl
@[simp] theorem State.hardReset_busyAnswers : (s.hardReset).busyAnswers = s.busyAnswers := rfl
@[simp] theorem State.hardReset_rxAnswers : (s.hardReset).rxAnswers = s.rxAnswers := rfl
@[simp] theorem State.hardReset_draws : (s.hardReset).draws = s.draws + 7 := rfl

/-! `State.paramDrawn` -/

@[simp] theorem State.paramDrawn_cfg (i : Nat) : (s.paramDrawn i).cfg = s.cfg := rfl
@[simp] theorem State.paramDrawn_acc (i : Nat) : (s.paramDrawn i).acc = s.acc := rfl
@[simp] theorem State.paramDrawn_errStage (i : Nat) : (s.paramDrawn i).errStage = s.errStage := rfl
@[simp] theorem State.paramDrawn_scanCnt (i : Nat) : (s.paramDrawn i).scanCnt = s.scanCnt := rfl
@[simp] theorem State.paramDrawn_pidx (i : Nat) : (s.paramDrawn i).pidx = s.pidx := rfl
@[simp] theorem State.paramDrawn_lOp (i : Nat) : (s.paramDrawn i).lOp = s.lOp := rfl
@[simp] theorem State.paramDrawn_lId (i : Nat) : (s.paramDrawn i).lId = s.lId := rfl
@[simp] theorem State.paramDrawn_lAddr (i : Nat) : (s.paramDrawn i).lAddr = s.lAddr := rfl
@[simp] theorem State.paramDrawn_lLen (i : Nat) : (s.paramDrawn i).lLen = s.lLen := rfl
@[simp] theorem State.paramDrawn_lN (i : Nat) : (s.paramDrawn i).lN = s.lN := rfl
@[simp] theorem State.paramDrawn_lExpLen (i : Nat) : (s.paramDrawn i).lExpLen = s.lExpLen := rfl
@[simp] theorem State.paramDrawn_lTx (i : Nat) : (s.paramDrawn i).lTx = s.lTx := rfl
@[simp] theorem State.paramDrawn_txTouched (i : Nat) : (s.paramDrawn i).txTouched = s.txTouched := rfl
@[simp] theorem State.paramDrawn_phase (i : Nat) : (s.paramDrawn i).phase = s.phase := rfl
@[simp] theorem State.paramDrawn_result (i : Nat) : (s.paramDrawn i).result = s.result := rfl
@[simp] theorem State.paramDrawn_dir (i : Nat) : (s.paramDrawn i).dir = s.dir := rfl
@[simp] theorem State.paramDrawn_devId (i : Nat) : (s.paramDrawn i).devId = s.devId := rfl
@[simp] theorem State.paramDrawn_devErr (i : Nat) : (s.paramDrawn i).devErr = s.devErr := rfl
@[simp] theorem State.paramDrawn_callOp (i : Nat) : (s.paramDrawn i).callOp = s.callOp := rfl
@[simp] theorem State.paramDrawn_callAddr (i : Nat) : (s.paramDrawn i).callAddr = s.callAddr := rfl
@[simp] theorem State.paramDrawn_callLen (i : Nat) : (s.paramDrawn i).callLen = s.callLen := rfl
@[simp] theorem State.paramDrawn_presented (i : Nat) : (s.paramDrawn i).presented = s.presented := rfl
@[simp] theorem State.paramDrawn_txbuf (i : Nat) : (s.paramDrawn i).txbuf = s.txbuf := rfl
@[simp] theorem State.paramDrawn_rxbuf (i : Nat) : (s.paramDrawn i).rxbuf = s.rxbuf := rfl
@[simp] theorem State.paramDrawn_resetReq (i : Nat) : (s.paramDrawn i).resetReq = s.resetReq := rfl
@[simp] theorem State.paramDrawn_trace (i : Nat) : (s.paramDrawn i).trace = s.trace := rfl
@[simp] theorem State.paramDrawn_sendAnswers (i : Nat) : (s.paramDrawn i).sendAnswers = s.sendAnswers := rfl
@[simp] theorem State.paramDrawn_busyAnswers (i : Nat) : (s.paramDrawn i).busyAnswers = s.busyAnswers := rfl
@[simp] theorem State.paramDrawn_rxAnswers (i : Nat) : (s.paramDrawn i).rxAnswers = s.rxAnswers := rfl
@[simp] theorem State.paramDrawn_draws (i : Nat) : (s.paramDrawn i).draws = s.draws + if (s.knownParam i).isSome then 0 else 1 := rfl

/-! `State.watched` -/

@[simp] theorem State.watched_cfg : (s.watched).cfg = s.cfg := rfl
@[simp] theorem State.watched_acc : (s.watched).acc = s.acc := rfl
@[simp] theorem State.watched_errStage : (s.watched).errStage = s.errStage := rfl
@[simp] theorem State.watched_scanCnt : (s.watched).scanCnt = s.scanCnt := rfl
@[simp] theorem State.watched_pidx : (s.watched).pidx = s.pidx := rfl
@[simp] theorem State.watched_lOp : (s.watched).lOp = s.lOp := rfl
@[simp] theorem State.watched_lId : (s.watched).lId = s.lId := rfl
@[simp] theorem State.watched_lAddr : (s.watched).lAddr = s.lAddr := rfl
@[simp] theorem State.watched_lLen : (s.watched).lLen = s.lLen := rfl
@[simp] theorem State.watched_lN : (s.watched).lN = s.lN := rfl
@[simp] theorem State.watched_lExpLen : (s.watched).lExpLen = s.lExpLen := rfl
@[simp] theorem State.watched_lTx : (s.watched).lTx = s.lTx := rfl
@[simp] theorem State.watched_txTouched : (s.watched).txTouched = (s.txTouched || (sendsData s.lOp && s.phase.writes && s.txChanged)) := rfl
@[simp] theorem State.watched_phase : (s.watched).phase = s.phase := rfl
@[simp] theorem State.watched_result : (s.watched).result = s.result := rfl
@[simp] theorem State.watched_dir : (s.watched).dir = s.dir := rfl
@[simp] theorem State.watched_devId : (s.watched).devId = s.devId := rfl
@[simp] theorem State.watched_devErr : (s.watched).devErr = s.devErr := rfl
@[simp] theorem State.watched_callOp : (s.watched).callOp = s.callOp := rfl
@[simp] theorem State.watched_callAddr : (s.watched).callAddr = s.callAddr := rfl
@[simp] theorem State.watched_callLen : (s.watched).callLen = s.callLen := rfl
@[simp] theorem State.watched_presented : (s.watched).presented = s.presented := rfl
@[simp] theorem State.watched_txbuf : (s.watched).txbuf = s.txbuf := rfl
@[simp] theorem State.watched_rxbuf : (s.watched).rxbuf = s.rxbuf := rfl
@[simp] theorem State.watched_resetReq : (s.watched).resetReq = s.resetReq := rfl
@[simp] theorem State.watched_trace : (s.watched).trace = s.trace := rfl
@[simp] theorem State.watched_sendAnswers : (s.watched).sendAnswers = s.sendAnswers := rfl
@[simp] theorem State.watched_busyAnswers : (s.watched).busyAnswers = s.busyAnswers := rfl
@[simp] theorem State.watched_rxAnswers : (s.watched).rxAnswers = s.rxAnswers := rfl
@[simp] theorem State.watched_draws : (s.watched).draws = s.draws := rfl

/-! `State.withLocal` -/

@[simp] theorem State.withLocal_cfg (w : Nat) : (s.withLocal w).cfg = s.cfg := rfl
@[simp] theorem State.withLocal_acc (w : Nat) : (s.withLocal w).acc = s.acc := rfl
@[simp] theorem State.withLocal_errStage (w : Nat) : (s.withLocal w).errStage = s.errStage := rfl
@[simp] theorem State.withLocal_scanCnt (w : Nat) : (s.withLocal w).scanCnt = s.scanCnt := rfl
@[simp] theorem State.withLocal_pidx (w : Nat) : (s.withLocal w).pidx = s.pidx := rfl
@[simp] theorem State.withLocal_lOp (w : Nat) : (s.withLocal w).lOp = s.lOp := rfl
@[simp] theorem State.withLocal_lId (w : Nat) : (s.withLocal w).lId = s.lId := rfl
@[simp] theorem State.withLocal_lAddr (w : Nat) : (s.withLocal w).lAddr = s.lAddr := rfl
@[simp] theorem State.withLocal_lLen (w : Nat) : (s.withLocal w).lLen = s.lLen := rfl
@[simp] theorem State.withLocal_lN (w : Nat) : (s.withLocal w).lN = s.lN := rfl
@[simp] theorem State.withLocal_lExpLen (w : Nat) : (s.withLocal w).lExpLen = s.lExpLen := rfl
@[simp] theorem State.withLocal_lTx (w : Nat) : (s.withLocal w).lTx = s.lTx := rfl
@[simp] theorem State.withLocal_txTouched (w : Nat) : (s.withLocal w).txTouched = s.txTouched := rfl
@[simp] theorem State.withLocal_phase (w : Nat) : (s.withLocal w).phase = s.phase := rfl
@[simp] theorem State.withLocal_result (w : Nat) : (s.withLocal w).result = s.result := rfl
@[simp] theorem State.withLocal_dir (w : Nat) : (s.withLocal w).dir = s.dir := rfl
@[simp] theorem State.withLocal_devId (w : Nat) : (s.withLocal w).devId = s.devId := rfl
@[simp] theorem State.withLocal_devErr (w : Nat) : (s.withLocal w).devErr = s.devErr := rfl
@[simp] theorem State.withLocal_callOp (w : Nat) : (s.withLocal w).callOp = s.callOp := rfl
@[simp] theorem State.withLocal_callAddr (w : Nat) : (s.withLocal w).callAddr = s.callAddr := rfl
@[simp] theorem State.withLocal_callLen (w : Nat) : (s.withLocal w).callLen = s.callLen := rfl
@[simp] theorem State.withLocal_presented (w : Nat) : (s.withLocal w).presented = s.presented := rfl
@[simp] theorem State.withLocal_txbuf (w : Nat) : (s.withLocal w).txbuf = s.txbuf := rfl
@[simp] theorem State.withLocal_rxbuf (w : Nat) : (s.withLocal w).rxbuf = freeBytes s.draws w := rfl
@[simp] theorem State.withLocal_resetReq (w : Nat) : (s.withLocal w).resetReq = s.resetReq := rfl
@[simp] theorem State.withLocal_trace (w : Nat) : (s.withLocal w).trace = s.trace := rfl
@[simp] theorem State.withLocal_sendAnswers (w : Nat) : (s.withLocal w).sendAnswers = s.sendAnswers := rfl
@[simp] theorem State.withLocal_busyAnswers (w : Nat) : (s.withLocal w).busyAnswers = s.busyAnswers := rfl
@[simp] theorem State.withLocal_rxAnswers (w : Nat) : (s.withLocal w).rxAnswers = s.rxAnswers := rfl
@[simp] theorem State.withLocal_draws (w : Nat) : (s.withLocal w).draws = s.draws + w := rfl

/-! `State.setDir` -/

@[simp] theorem State.setDir_cfg (d : Dir) : (s.setDir d).cfg = s.cfg := rfl
@[simp] theorem State.setDir_acc (d : Dir) : (s.setDir d).acc = s.acc := rfl
@[simp] theorem State.setDir_errStage (d : Dir) : (s.setDir d).errStage = s.errStage := rfl
@[simp] theorem State.setDir_scanCnt (d : Dir) : (s.setDir d).scanCnt = s.scanCnt := rfl
@[simp] theorem State.setDir_pidx (d : Dir) : (s.setDir d).pidx = s.pidx := rfl
@[simp] theorem State.setDir_lOp (d : Dir) : (s.setDir d).lOp = s.lOp := rfl
@[simp] theorem State.setDir_lId (d : Dir) : (s.setDir d).lId = s.lId := rfl
@[simp] theorem State.setDir_lAddr (d : Dir) : (s.setDir d).lAddr = s.lAddr := rfl
@[simp] theorem State.setDir_lLen (d : Dir) : (s.setDir d).lLen = s.lLen := rfl
@[simp] theorem State.setDir_lN (d : Dir) : (s.setDir d).lN = s.lN := rfl
@[simp] theorem State.setDir_lExpLen (d : Dir) : (s.setDir d).lExpLen = s.lExpLen := rfl
@[simp] theorem State.setDir_lTx (d : Dir) : (s.setDir d).lTx = s.lTx := rfl
@[simp] theorem State.setDir_txTouched (d : Dir) : (s.setDir d).txTouched = s.txTouched := rfl
@[simp] theorem State.setDir_phase (d : Dir) : (s.setDir d).phase = s.phase := rfl
@[simp] theorem State.setDir_result (d : Dir) : (s.setDir d).result = s.result := rfl
@[simp] theorem State.setDir_dir (d : Dir) : (s.setDir d).dir = d := rfl
@[simp] theorem State.setDir_devId (d : Dir) : (s.setDir d).devId = s.devId := rfl
@[simp] theorem State.setDir_devErr (d : Dir) : (s.setDir d).devErr = s.devErr := rfl
@[simp] theorem State.setDir_callOp (d : Dir) : (s.setDir d).callOp = s.callOp := rfl
@[simp] theorem State.setDir_callAddr (d : Dir) : (s.setDir d).callAddr = s.callAddr := rfl
@[simp] theorem State.setDir_callLen (d : Dir) : (s.setDir d).callLen = s.callLen := rfl
@[simp] theorem State.setDir_presented (d : Dir) : (s.setDir d).presented = s.presented := rfl
@[simp] theorem State.setDir_txbuf (d : Dir) : (s.setDir d).txbuf = s.txbuf := rfl
@[simp] theorem State.setDir_rxbuf (d : Dir) : (s.setDir d).rxbuf = s.rxbuf := rfl
@[simp] theorem State.setDir_resetReq (d : Dir) : (s.setDir d).resetReq = s.resetReq := rfl
@[simp] theorem State.setDir_trace (d : Dir) : (s.setDir d).trace = s.trace ++ [.dir d] := rfl
@[simp] theorem State.setDir_sendAnswers (d : Dir) : (s.setDir d).sendAnswers = s.sendAnswers := rfl
@[simp] theorem State.setDir_busyAnswers (d : Dir) : (s.setDir d).busyAnswers = s.busyAnswers := rfl
@[simp] theorem State.setDir_rxAnswers (d : Dir) : (s.setDir d).rxAnswers = s.rxAnswers := rfl
@[simp] theorem State.setDir_draws (d : Dir) : (s.setDir d).draws = s.draws := rfl

/-! `State.succeed` -/

@[simp] theorem State.succeed_cfg : (s.succeed).cfg = s.cfg := rfl
@[simp] theorem State.succeed_acc : (s.succeed).acc = s.acc := rfl
@[simp] theorem State.succeed_errStage : (s.succeed).errStage = s.errStage := rfl
@[simp] theorem State.succeed_scanCnt : (s.succeed).scanCnt = s.scanCnt := rfl
@[simp] theorem State.succeed_pidx : (s.succeed).pidx = s.pidx := rfl
@[simp] theorem State.succeed_lOp : (s.succeed).lOp = s.lOp := rfl
@[simp] theorem State.succeed_lId : (s.succeed).lId = s.lId := rfl
@[simp] theorem State.succeed_lAddr : (s.succeed).lAddr = s.lAddr := rfl
@[simp] theorem State.succeed_lLen : (s.succeed).lLen = s.lLen := rfl
@[simp] theorem State.succeed_lN : (s.succeed).lN = s.lN := rfl
@[simp] theorem State.succeed_lExpLen : (s.succeed).lExpLen = s.lExpLen := rfl
@[simp] theorem State.succeed_lTx : (s.succeed).lTx = s.lTx := rfl
@[simp] theorem State.succeed_txTouched : (s.succeed).txTouched = s.txTouched := rfl
@[simp] theorem State.succeed_phase : (s.succeed).phase = .done := rfl
@[simp] theorem State.succeed_result : (s.succeed).result = .success := rfl
@[simp] theorem State.succeed_dir : (s.succeed).dir = s.dir := rfl
@[simp] theorem State.succeed_devId : (s.succeed).devId = s.devId := rfl
@[simp] theorem State.succeed_devErr : (s.succeed).devErr = s.devErr := rfl
@[simp] theorem State.succeed_callOp : (s.succeed).callOp = s.callOp := rfl
@[simp] theorem State.succeed_callAddr : (s.succeed).callAddr = s.callAddr := rfl
@[simp] theorem State.succeed_callLen : (s.succeed).callLen = s.callLen := rfl
@[simp] theorem State.succeed_presented : (s.succeed).presented = s.presented := rfl
@[simp] theorem State.succeed_txbuf : (s.succeed).txbuf = s.txbuf := rfl
@[simp] theorem State.succeed_rxbuf : (s.succeed).rxbuf = s.rxbuf := rfl
@[simp] theorem State.succeed_resetReq : (s.succeed).resetReq = s.resetReq := rfl
@[simp] theorem State.succeed_trace : (s.succeed).trace = s.trace := rfl
@[simp] theorem State.succeed_sendAnswers : (s.succeed).sendAnswers = s.sendAnswers := rfl
@[simp] theorem State.succeed_busyAnswers : (s.succeed).busyAnswers = s.busyAnswers := rfl
@[simp] theorem State.succeed_rxAnswers : (s.succeed).rxAnswers = s.rxAnswers := rfl
@[simp] theorem State.succeed_draws : (s.succeed).draws = s.draws := rfl

/-! `State.accept` -/

@[simp] theorem State.accept_cfg : (s.accept).cfg = s.cfg := rfl
@[simp] theorem State.accept_acc : (s.accept).acc = s.acc := rfl
@[simp] theorem State.accept_errStage : (s.accept).errStage = s.errStage := rfl
@[simp] theorem State.accept_scanCnt : (s.accept).scanCnt = s.scanCnt := rfl
@[simp] theorem State.accept_pidx : (s.accept).pidx = s.pidx := rfl
@[simp] theorem State.accept_lOp : (s.accept).lOp = s.lOp := rfl
@[simp] theorem State.accept_lId : (s.accept).lId = s.lId := rfl
@[simp] theorem State.accept_lAddr : (s.accept).lAddr = s.lAddr := rfl
@[simp] theorem State.accept_lLen : (s.accept).lLen = s.lLen := rfl
@[simp] theorem State.accept_lN : (s.accept).lN = s.lN := rfl
@[simp] theorem State.accept_lExpLen : (s.accept).lExpLen = s.lExpLen := rfl
@[simp] theorem State.accept_lTx : (s.accept).lTx = s.lTx := rfl
@[simp] theorem State.accept_txTouched : (s.accept).txTouched = s.txTouched := rfl
@[simp] theorem State.accept_phase : (s.accept).phase = .done := rfl
@[simp] theorem State.accept_result : (s.accept).result = .success := rfl
@[simp] theorem State.accept_dir : (s.accept).dir = s.dir := rfl
@[simp] theorem State.accept_devId : (s.accept).devId = s.devId := rfl
@[simp] theorem State.accept_devErr : (s.accept).devErr = s.errStage := rfl
@[simp] theorem State.accept_callOp : (s.accept).callOp = s.callOp := rfl
@[simp] theorem State.accept_callAddr : (s.accept).callAddr = s.callAddr := rfl
@[simp] theorem State.accept_callLen : (s.accept).callLen = s.callLen := rfl
@[simp] theorem State.accept_presented : (s.accept).presented = s.presented := rfl
@[simp] theorem State.accept_txbuf : (s.accept).txbuf = s.txbuf := rfl
@[simp] theorem State.accept_rxbuf : (s.accept).rxbuf = s.rxbuf := rfl
@[simp] theorem State.accept_resetReq : (s.accept).resetReq = s.resetReq := rfl
@[simp] theorem State.accept_trace : (s.accept).trace = s.trace := rfl
@[simp] theorem State.accept_sendAnswers : (s.accept).sendAnswers = s.sendAnswers := rfl
@[simp] theorem State.accept_busyAnswers : (s.accept).busyAnswers = s.busyAnswers := rfl
@[simp] theorem State.accept_rxAnswers : (s.accept).rxAnswers = s.rxAnswers := rfl
@[simp] theorem State.accept_draws : (s.accept).draws = s.draws := rfl

/-! `State.deliver` -/

@[simp] theorem State.deliver_cfg : (s.deliver).cfg = s.cfg := rfl
@[simp] theorem State.deliver_acc : (s.deliver).acc = s.acc := rfl
@[simp] theorem State.deliver_errStage : (s.deliver).errStage = s.errStage := rfl
@[simp] theorem State.deliver_scanCnt : (s.deliver).scanCnt = s.scanCnt := rfl
@[simp] theorem State.deliver_pidx : (s.deliver).pidx = s.pidx := rfl
@[simp] theorem State.deliver_lOp : (s.deliver).lOp = s.lOp := rfl
@[simp] theorem State.deliver_lId : (s.deliver).lId = s.lId := rfl
@[simp] theorem State.deliver_lAddr : (s.deliver).lAddr = s.lAddr := rfl
@[simp] theorem State.deliver_lLen : (s.deliver).lLen = s.lLen := rfl
@[simp] theorem State.deliver_lN : (s.deliver).lN = s.lN := rfl
@[simp] theorem State.deliver_lExpLen : (s.deliver).lExpLen = s.lExpLen := rfl
@[simp] theorem State.deliver_lTx : (s.deliver).lTx = s.lTx := rfl
@[simp] theorem State.deliver_txTouched : (s.deliver).txTouched = s.txTouched := rfl
@[simp] theorem State.deliver_phase : (s.deliver).phase = .idle := rfl
@[simp] theorem State.deliver_result : (s.deliver).result = s.result := rfl
@[simp] theorem State.deliver_dir : (s.deliver).dir = s.dir := rfl
@[simp] theorem State.deliver_devId : (s.deliver).devId = s.devId := rfl
@[simp] theorem State.deliver_devErr : (s.deliver).devErr = s.devErr := rfl
@[simp] theorem State.deliver_callOp : (s.deliver).callOp = s.callOp := rfl
@[simp] theorem State.deliver_callAddr : (s.deliver).callAddr = s.callAddr := rfl
@[simp] theorem State.deliver_callLen : (s.deliver).callLen = s.callLen := rfl
@[simp] theorem State.deliver_presented : (s.deliver).presented = s.presented := rfl
@[simp] theorem State.deliver_txbuf : (s.deliver).txbuf = s.txbuf := rfl
@[simp] theorem State.deliver_rxbuf : (s.deliver).rxbuf = s.rxbuf := rfl
@[simp] theorem State.deliver_resetReq : (s.deliver).resetReq = s.resetReq := rfl
@[simp] theorem State.deliver_trace : (s.deliver).trace = s.trace := rfl
@[simp] theorem State.deliver_sendAnswers : (s.deliver).sendAnswers = s.sendAnswers := rfl
@[simp] theorem State.deliver_busyAnswers : (s.deliver).busyAnswers = s.busyAnswers := rfl
@[simp] theorem State.deliver_rxAnswers : (s.deliver).rxAnswers = s.rxAnswers := rfl
@[simp] theorem State.deliver_draws : (s.deliver).draws = s.draws := rfl

/-! `State.takeRequest` -/

@[simp] theorem State.takeRequest_cfg : (s.takeRequest).cfg = s.cfg := rfl
@[simp] theorem State.takeRequest_acc : (s.takeRequest).acc = s.acc := rfl
@[simp] theorem State.takeRequest_errStage : (s.takeRequest).errStage = s.errStage := rfl
@[simp] theorem State.takeRequest_scanCnt : (s.takeRequest).scanCnt = s.scanCnt := rfl
@[simp] theorem State.takeRequest_pidx : (s.takeRequest).pidx = s.pidx := rfl
@[simp] theorem State.takeRequest_lOp : (s.takeRequest).lOp = s.lOp := rfl
@[simp] theorem State.takeRequest_lId : (s.takeRequest).lId = s.lId := rfl
@[simp] theorem State.takeRequest_lAddr : (s.takeRequest).lAddr = s.lAddr := rfl
@[simp] theorem State.takeRequest_lLen : (s.takeRequest).lLen = s.lLen := rfl
@[simp] theorem State.takeRequest_lN : (s.takeRequest).lN = s.lN := rfl
@[simp] theorem State.takeRequest_lExpLen : (s.takeRequest).lExpLen = s.lExpLen := rfl
@[simp] theorem State.takeRequest_lTx : (s.takeRequest).lTx = s.lTx := rfl
@[simp] theorem State.takeRequest_txTouched : (s.takeRequest).txTouched = s.txTouched := rfl
@[simp] theorem State.takeRequest_phase : (s.takeRequest).phase = s.phase := rfl
@[simp] theorem State.takeRequest_result : (s.takeRequest).result = s.result := rfl
@[simp] theorem State.takeRequest_dir : (s.takeRequest).dir = s.dir := rfl
@[simp] theorem State.takeRequest_devId : (s.takeRequest).devId = s.devId := rfl
@[simp] theorem State.takeRequest_devErr : (s.takeRequest).devErr = s.devErr := rfl
@[simp] theorem State.takeRequest_callOp : (s.takeRequest).callOp = s.callOp := rfl
@[simp] theorem State.takeRequest_callAddr : (s.takeRequest).callAddr = s.callAddr := rfl
@[simp] theorem State.takeRequest_callLen : (s.takeRequest).callLen = s.callLen := rfl
@[simp] theorem State.takeRequest_presented : (s.takeRequest).presented = false := rfl
@[simp] theorem State.takeRequest_txbuf : (s.takeRequest).txbuf = s.txbuf := rfl
@[simp] theorem State.takeRequest_rxbuf : (s.takeRequest).rxbuf = s.rxbuf := rfl
@[simp] theorem State.takeRequest_resetReq : (s.takeRequest).resetReq = s.resetReq := rfl
@[simp] theorem State.takeRequest_trace : (s.takeRequest).trace = s.trace := rfl
@[simp] theorem State.takeRequest_sendAnswers : (s.takeRequest).sendAnswers = s.sendAnswers := rfl
@[simp] theorem State.takeRequest_busyAnswers : (s.takeRequest).busyAnswers = s.busyAnswers := rfl
@[simp] theorem State.takeRequest_rxAnswers : (s.takeRequest).rxAnswers = s.rxAnswers := rfl
@[simp] theorem State.takeRequest_draws : (s.takeRequest).draws = s.draws := rfl

/-! `State.receive` -/

@[simp] theorem State.receive_cfg (bytes : List Byte) : (s.receive bytes).cfg = s.cfg := rfl
@[simp] theorem State.receive_acc (bytes : List Byte) : (s.receive bytes).acc = s.acc := rfl
@[simp] theorem State.receive_errStage (bytes : List Byte) : (s.receive bytes).errStage = s.errStage := rfl
@[simp] theorem State.receive_scanCnt (bytes : List Byte) : (s.receive bytes).scanCnt = s.scanCnt := rfl
@[simp] theorem State.receive_pidx (bytes : List Byte) : (s.receive bytes).pidx = s.pidx := rfl
@[simp] theorem State.receive_lOp (bytes : List Byte) : (s.receive bytes).lOp = s.lOp := rfl
@[simp] theorem State.receive_lId (bytes : List Byte) : (s.receive bytes).lId = s.lId := rfl
@[simp] theorem State.receive_lAddr (bytes : List Byte) : (s.receive bytes).lAddr = s.lAddr := rfl
@[simp] theorem State.receive_lLen (bytes : List Byte) : (s.receive bytes).lLen = s.lLen := rfl
@[simp] theorem State.receive_lN (bytes : List Byte) : (s.receive bytes).lN = s.lN := rfl
@[simp] theorem State.receive_lExpLen (bytes : List Byte) : (s.receive bytes).lExpLen = s.lExpLen := rfl
@[simp] theorem State.receive_lTx (bytes : List Byte) : (s.receive bytes).lTx = s.lTx := rfl
@[simp] theorem State.receive_txTouched (bytes : List Byte) : (s.receive bytes).txTouched = s.txTouched := rfl
@[simp] theorem State.receive_phase (bytes : List Byte) : (s.receive bytes).phase = s.phase := rfl
@[simp] theorem State.receive_result (bytes : List Byte) : (s.receive bytes).result = s.result := rfl
@[simp] theorem State.receive_dir (bytes : List Byte) : (s.receive bytes).dir = s.dir := rfl
@[simp] theorem State.receive_devId (bytes : List Byte) : (s.receive bytes).devId = s.devId := rfl
@[simp] theorem State.receive_devErr (bytes : List Byte) : (s.receive bytes).devErr = s.devErr := rfl
@[simp] theorem State.receive_callOp (bytes : List Byte) : (s.receive bytes).callOp = s.callOp := rfl
@[simp] theorem State.receive_callAddr (bytes : List Byte) : (s.receive bytes).callAddr = s.callAddr := rfl
@[simp] theorem State.receive_callLen (bytes : List Byte) : (s.receive bytes).callLen = s.callLen := rfl
@[simp] theorem State.receive_presented (bytes : List Byte) : (s.receive bytes).presented = s.presented := rfl
@[simp] theorem State.receive_txbuf (bytes : List Byte) : (s.receive bytes).txbuf = s.txbuf := rfl
@[simp] theorem State.receive_rxbuf (bytes : List Byte) : (s.receive bytes).rxbuf = s.rxbuf := rfl
@[simp] theorem State.receive_resetReq (bytes : List Byte) : (s.receive bytes).resetReq = s.resetReq := rfl
@[simp] theorem State.receive_trace (bytes : List Byte) : (s.receive bytes).trace = s.trace := rfl
@[simp] theorem State.receive_sendAnswers (bytes : List Byte) : (s.receive bytes).sendAnswers = s.sendAnswers := rfl
@[simp] theorem State.receive_busyAnswers (bytes : List Byte) : (s.receive bytes).busyAnswers = s.busyAnswers := rfl
@[simp] theorem State.receive_rxAnswers (bytes : List Byte) : (s.receive bytes).rxAnswers = bytes ++ s.rxAnswers := rfl
@[simp] theorem State.receive_draws (bytes : List Byte) : (s.receive bytes).draws = s.draws := rfl

/-! `State.spoilReply` -/

@[simp] theorem State.spoilReply_cfg : (s.spoilReply).cfg = s.cfg := rfl
@[simp] theorem State.spoilReply_acc : (s.spoilReply).acc = s.acc := rfl
@[simp] theorem State.spoilReply_errStage : (s.spoilReply).errStage = s.errStage := rfl
@[simp] theorem State.spoilReply_scanCnt : (s.spoilReply).scanCnt = s.scanCnt := rfl
@[simp] theorem State.spoilReply_pidx : (s.spoilReply).pidx = s.pidx := rfl
@[simp] theorem State.spoilReply_lOp : (s.spoilReply).lOp = s.lOp := rfl
@[simp] theorem State.spoilReply_lId : (s.spoilReply).lId = s.lId := rfl
@[simp] theorem State.spoilReply_lAddr : (s.spoilReply).lAddr = s.lAddr := rfl
@[simp] theorem State.spoilReply_lLen : (s.spoilReply).lLen = s.lLen := rfl
@[simp] theorem State.spoilReply_lN : (s.spoilReply).lN = s.lN := rfl
@[simp] theorem State.spoilReply_lExpLen : (s.spoilReply).lExpLen = s.lExpLen := rfl
@[simp] theorem State.spoilReply_lTx : (s.spoilReply).lTx = s.lTx := rfl
@[simp] theorem State.spoilReply_txTouched : (s.spoilReply).txTouched = s.txTouched := rfl
@[simp] theorem State.spoilReply_phase : (s.spoilReply).phase = s.phase := rfl
@[simp] theorem State.spoilReply_result : (s.spoilReply).result = s.result := rfl
@[simp] theorem State.spoilReply_dir : (s.spoilReply).dir = s.dir := rfl
@[simp] theorem State.spoilReply_devId : (s.spoilReply).devId = s.devId := rfl
@[simp] theorem State.spoilReply_devErr : (s.spoilReply).devErr = s.devErr := rfl
@[simp] theorem State.spoilReply_callOp : (s.spoilReply).callOp = s.callOp := rfl
@[simp] theorem State.spoilReply_callAddr : (s.spoilReply).callAddr = s.callAddr := rfl
@[simp] theorem State.spoilReply_callLen : (s.spoilReply).callLen = s.callLen := rfl
@[simp] theorem State.spoilReply_presented : (s.spoilReply).presented = s.presented := rfl
@[simp] theorem State.spoilReply_txbuf : (s.spoilReply).txbuf = s.txbuf := rfl
@[simp] theorem State.spoilReply_rxbuf : (s.spoilReply).rxbuf = freeBytes s.draws (min s.expLen s.rxbuf.length) ++ s.rxbuf.drop (min s.expLen s.rxbuf.length) := rfl
@[simp] theorem State.spoilReply_resetReq : (s.spoilReply).resetReq = s.resetReq := rfl
@[simp] theorem State.spoilReply_trace : (s.spoilReply).trace = s.trace := rfl
@[simp] theorem State.spoilReply_sendAnswers : (s.spoilReply).sendAnswers = s.sendAnswers := rfl
@[simp] theorem State.spoilReply_busyAnswers : (s.spoilReply).busyAnswers = s.busyAnswers := rfl
@[simp] theorem State.spoilReply_rxAnswers : (s.spoilReply).rxAnswers = s.rxAnswers := rfl
@[simp] theorem State.spoilReply_draws : (s.spoilReply).draws = s.draws + min s.expLen s.rxbuf.length := rfl

/-! `State.fail` -/

@[simp] theorem State.fail_cfg (e : Result) : (s.fail e).cfg = s.cfg := rfl
@[simp] theorem State.fail_acc (e : Result) : (s.fail e).acc = s.acc := rfl
@[simp] theorem State.fail_errStage (e : Result) : (s.fail e).errStage = s.errStage := rfl
@[simp] theorem State.fail_scanCnt (e : Result) : (s.fail e).scanCnt = s.scanCnt := rfl
@[simp] theorem State.fail_pidx (e : Result) : (s.fail e).pidx = s.pidx := rfl
@[simp] theorem State.fail_lOp (e : Result) : (s.fail e).lOp = s.lOp := rfl
@[simp] theorem State.fail_lId (e : Result) : (s.fail e).lId = s.lId := rfl
@[simp] theorem State.fail_lAddr (e : Result) : (s.fail e).lAddr = s.lAddr := rfl
@[simp] theorem State.fail_lLen (e : Result) : (s.fail e).lLen = s.lLen := rfl
@[simp] theorem State.fail_lN (e : Result) : (s.fail e).lN = s.lN := rfl
@[simp] theorem State.fail_lExpLen (e : Result) : (s.fail e).lExpLen = s.lExpLen := rfl
@[simp] theorem State.fail_lTx (e : Result) : (s.fail e).lTx = s.lTx := rfl
@[simp] theorem State.fail_txTouched (e : Result) : (s.fail e).txTouched = s.txTouched := rfl
@[simp] theorem State.fail_phase (e : Result) : (s.fail e).phase = .done := rfl
@[simp] theorem State.fail_result (e : Result) : (s.fail e).result = e := rfl
@[simp] theorem State.fail_dir (e : Result) : (s.fail e).dir = s.dir := rfl
@[simp] theorem State.fail_devId (e : Result) : (s.fail e).devId = s.devId := rfl
@[simp] theorem State.fail_devErr (e : Result) : (s.fail e).devErr = s.devErr := rfl
@[simp] theorem State.fail_callOp (e : Result) : (s.fail e).callOp = s.callOp := rfl
@[simp] theorem State.fail_callAddr (e : Result) : (s.fail e).callAddr = s.callAddr := rfl
@[simp] theorem State.fail_callLen (e : Result) : (s.fail e).callLen = s.callLen := rfl
@[simp] theorem State.fail_presented (e : Result) : (s.fail e).presented = s.presented := rfl
@[simp] theorem State.fail_txbuf (e : Result) : (s.fail e).txbuf = s.txbuf := rfl
@[simp] theorem State.fail_rxbuf (e : Result) : (s.fail e).rxbuf = s.spoilReply.rxbuf := rfl
@[simp] theorem State.fail_resetReq (e : Result) : (s.fail e).resetReq = s.resetReq := rfl
@[simp] theorem State.fail_trace (e : Result) : (s.fail e).trace = s.trace := rfl
@[simp] theorem State.fail_sendAnswers (e : Result) : (s.fail e).sendAnswers = s.sendAnswers := rfl
@[simp] theorem State.fail_busyAnswers (e : Result) : (s.fail e).busyAnswers = s.busyAnswers := rfl
@[simp] theorem State.fail_rxAnswers (e : Result) : (s.fail e).rxAnswers = s.rxAnswers := rfl
@[simp] theorem State.fail_draws (e : Result) : (s.fail e).draws = s.spoilReply.draws := rfl

/-! `State.accepted` -/

@[simp] theorem State.accepted_cfg (op : Op) (id : Byte) : (s.accepted op id).cfg = s.cfg := rfl
@[simp] theorem State.accepted_acc (op : Op) (id : Byte) : (s.accepted op id).acc = s.acc := rfl
@[simp] theorem State.accepted_errStage (op : Op) (id : Byte) : (s.accepted op id).errStage = s.errStage := rfl
@[simp] theorem State.accepted_scanCnt (op : Op) (id : Byte) : (s.accepted op id).scanCnt = s.scanCnt := rfl
@[simp] theorem State.accepted_pidx (op : Op) (id : Byte) : (s.accepted op id).pidx = s.pidx := rfl
@[simp] theorem State.accepted_lOp (op : Op) (id : Byte) : (s.accepted op id).lOp = op := rfl
@[simp] theorem State.accepted_lId (op : Op) (id : Byte) : (s.accepted op id).lId = id := rfl
@[simp] theorem State.accepted_lAddr (op : Op) (id : Byte) : (s.accepted op id).lAddr = s.lAddr := rfl
@[simp] theorem State.accepted_lLen (op : Op) (id : Byte) : (s.accepted op id).lLen = s.lLen := rfl
@[simp] theorem State.accepted_lN (op : Op) (id : Byte) : (s.accepted op id).lN = s.lN := rfl
@[simp] theorem State.accepted_lExpLen (op : Op) (id : Byte) : (s.accepted op id).lExpLen = s.lExpLen := rfl
@[simp] theorem State.accepted_lTx (op : Op) (id : Byte) : (s.accepted op id).lTx = s.lTx := rfl
@[simp] theorem State.accepted_txTouched (op : Op) (id : Byte) : (s.accepted op id).txTouched = s.txTouched := rfl
@[simp] theorem State.accepted_phase (op : Op) (id : Byte) : (s.accepted op id).phase = .wDir := rfl
@[simp] theorem State.accepted_result (op : Op) (id : Byte) : (s.accepted op id).result = s.result := rfl
@[simp] theorem State.accepted_dir (op : Op) (id : Byte) : (s.accepted op id).dir = s.dir := rfl
@[simp] theorem State.accepted_devId (op : Op) (id : Byte) : (s.accepted op id).devId = s.devId := rfl
@[simp] theorem State.accepted_devErr (op : Op) (id : Byte) : (s.accepted op id).devErr = s.devErr := rfl
@[simp] theorem State.accepted_callOp (op : Op) (id : Byte) : (s.accepted op id).callOp = s.callOp := rfl
@[simp] theorem State.accepted_callAddr (op : Op) (id : Byte) : (s.accepted op id).callAddr = s.callAddr := rfl
@[simp] theorem State.accepted_callLen (op : Op) (id : Byte) : (s.accepted op id).callLen = s.callLen := rfl
@[simp] theorem State.accepted_presented (op : Op) (id : Byte) : (s.accepted op id).presented = s.presented := rfl
@[simp] theorem State.accepted_txbuf (op : Op) (id : Byte) : (s.accepted op id).txbuf = s.txbuf := rfl
@[simp] theorem State.accepted_rxbuf (op : Op) (id : Byte) : (s.accepted op id).rxbuf = s.rxbuf := rfl
@[simp] theorem State.accepted_resetReq (op : Op) (id : Byte) : (s.accepted op id).resetReq = s.resetReq := rfl
@[simp] theorem State.accepted_trace (op : Op) (id : Byte) : (s.accepted op id).trace = [] := rfl
@[simp] theorem State.accepted_sendAnswers (op : Op) (id : Byte) : (s.accepted op id).sendAnswers = s.sendAnswers := rfl
@[simp] theorem State.accepted_busyAnswers (op : Op) (id : Byte) : (s.accepted op id).busyAnswers = s.busyAnswers := rfl
@[simp] theorem State.accepted_rxAnswers (op : Op) (id : Byte) : (s.accepted op id).rxAnswers = s.rxAnswers := rfl
@[simp] theorem State.accepted_draws (op : Op) (id : Byte) : (s.accepted op id).draws = s.draws := rfl

end Sys2Proof.Machine
end

