-- ==== Sys2Proof/Laws/Transport.lean ====
section
/-!
SUPPORT. What the transport operations leave alone and what they put on the trace: one lemma per field.
-/
namespace Sys2Proof.Machine

variable (s : State)

/-! `State.sendAsked` -/

@[simp] theorem State.sendAsked_cfg : s.sendAsked.cfg = s.cfg := rfl
@[simp] theorem State.sendAsked_acc : s.sendAsked.acc = s.acc := rfl
@[simp] theorem State.sendAsked_errStage : s.sendAsked.errStage = s.errStage := rfl
@[simp] theorem State.sendAsked_scanCnt : s.sendAsked.scanCnt = s.scanCnt := rfl
@[simp] theorem State.sendAsked_pidx : s.sendAsked.pidx = s.pidx := rfl
@[simp] theorem State.sendAsked_lOp : s.sendAsked.lOp = s.lOp := rfl
@[simp] theorem State.sendAsked_lId : s.sendAsked.lId = s.lId := rfl
@[simp] theorem State.sendAsked_lAddr : s.sendAsked.lAddr = s.lAddr := rfl
@[simp] theorem State.sendAsked_lLen : s.sendAsked.lLen = s.lLen := rfl
@[simp] theorem State.sendAsked_lN : s.sendAsked.lN = s.lN := rfl
@[simp] theorem State.sendAsked_lExpLen : s.sendAsked.lExpLen = s.lExpLen := rfl
@[simp] theorem State.sendAsked_lTx : s.sendAsked.lTx = s.lTx := rfl
@[simp] theorem State.sendAsked_txTouched : s.sendAsked.txTouched = s.txTouched := rfl
@[simp] theorem State.sendAsked_phase : s.sendAsked.phase = s.phase := rfl
@[simp] theorem State.sendAsked_result : s.sendAsked.result = s.result := rfl
@[simp] theorem State.sendAsked_dir : s.sendAsked.dir = s.dir := rfl
@[simp] theorem State.sendAsked_devId : s.sendAsked.devId = s.devId := rfl
@[simp] theorem State.sendAsked_devErr : s.sendAsked.devErr = s.devErr := rfl
@[simp] theorem State.sendAsked_callOp : s.sendAsked.callOp = s.callOp := rfl
@[simp] theorem State.sendAsked_callAddr : s.sendAsked.callAddr = s.callAddr := rfl
@[simp] theorem State.sendAsked_callLen : s.sendAsked.callLen = s.callLen := rfl
@[simp] theorem State.sendAsked_presented : s.sendAsked.presented = s.presented := rfl
@[simp] theorem State.sendAsked_txbuf : s.sendAsked.txbuf = s.txbuf := rfl
@[simp] theorem State.sendAsked_rxbuf : s.sendAsked.rxbuf = s.rxbuf := rfl
@[simp] theorem State.sendAsked_resetReq : s.sendAsked.resetReq = s.resetReq := rfl
@[simp] theorem State.sendAsked_trace : s.sendAsked.trace = s.trace := rfl
@[simp] theorem State.sendAsked_sendAnswers : s.sendAsked.sendAnswers = s.sendAnswers.tail := rfl
@[simp] theorem State.sendAsked_busyAnswers : s.sendAsked.busyAnswers = s.busyAnswers := rfl
@[simp] theorem State.sendAsked_rxAnswers : s.sendAsked.rxAnswers = s.rxAnswers := rfl
@[simp] theorem State.sendAsked_draws : s.sendAsked.draws = s.draws + (1 - s.sendAnswers.length) := rfl

/-! `State.busyAsked` -/

@[simp] theorem State.busyAsked_cfg : s.busyAsked.cfg = s.cfg := rfl
@[simp] theorem State.busyAsked_acc : s.busyAsked.acc = s.acc := rfl
@[simp] theorem State.busyAsked_errStage : s.busyAsked.errStage = s.errStage := rfl
@[simp] theorem State.busyAsked_scanCnt : s.busyAsked.scanCnt = s.scanCnt := rfl
@[simp] theorem State.busyAsked_pidx : s.busyAsked.pidx = s.pidx := rfl
@[simp] theorem State.busyAsked_lOp : s.busyAsked.lOp = s.lOp := rfl
@[simp] theorem State.busyAsked_lId : s.busyAsked.lId = s.lId := rfl
@[simp] theorem State.busyAsked_lAddr : s.busyAsked.lAddr = s.lAddr := rfl
@[simp] theorem State.busyAsked_lLen : s.busyAsked.lLen = s.lLen := rfl
@[simp] theorem State.busyAsked_lN : s.busyAsked.lN = s.lN := rfl
@[simp] theorem State.busyAsked_lExpLen : s.busyAsked.lExpLen = s.lExpLen := rfl
@[simp] theorem State.busyAsked_lTx : s.busyAsked.lTx = s.lTx := rfl
@[simp] theorem State.busyAsked_txTouched : s.busyAsked.txTouched = s.txTouched := rfl
@[simp] theorem State.busyAsked_phase : s.busyAsked.phase = s.phase := rfl
@[simp] theorem State.busyAsked_result : s.busyAsked.result = s.result := rfl
@[simp] theorem State.busyAsked_dir : s.busyAsked.dir = s.dir := rfl
@[simp] theorem State.busyAsked_devId : s.busyAsked.devId = s.devId := rfl
@[simp] theorem State.busyAsked_devErr : s.busyAsked.devErr = s.devErr := rfl
@[simp] theorem State.busyAsked_callOp : s.busyAsked.callOp = s.callOp := rfl
@[simp] theorem State.busyAsked_callAddr : s.busyAsked.callAddr = s.callAddr := rfl
@[simp] theorem State.busyAsked_callLen : s.busyAsked.callLen = s.callLen := rfl
@[simp] theorem State.busyAsked_presented : s.busyAsked.presented = s.presented := rfl
@[simp] theorem State.busyAsked_txbuf : s.busyAsked.txbuf = s.txbuf := rfl
@[simp] theorem State.busyAsked_rxbuf : s.busyAsked.rxbuf = s.rxbuf := rfl
@[simp] theorem State.busyAsked_resetReq : s.busyAsked.resetReq = s.resetReq := rfl
@[simp] theorem State.busyAsked_trace : s.busyAsked.trace = s.trace ++ [.busy s.busyAnswer] := rfl
@[simp] theorem State.busyAsked_sendAnswers : s.busyAsked.sendAnswers = s.sendAnswers := rfl
@[simp] theorem State.busyAsked_busyAnswers : s.busyAsked.busyAnswers = s.busyAnswers.tail := rfl
@[simp] theorem State.busyAsked_rxAnswers : s.busyAsked.rxAnswers = s.rxAnswers := rfl
@[simp] theorem State.busyAsked_draws : s.busyAsked.draws = s.draws + (1 - s.busyAnswers.length) := rfl

/-! `State.polled` -/

@[simp] theorem State.polled_cfg : s.polled.cfg = s.cfg := rfl
@[simp] theorem State.polled_acc : s.polled.acc = s.acc := rfl
@[simp] theorem State.polled_errStage : s.polled.errStage = s.errStage := rfl
@[simp] theorem State.polled_scanCnt : s.polled.scanCnt = s.scanCnt := rfl
@[simp] theorem State.polled_pidx : s.polled.pidx = s.pidx := rfl
@[simp] theorem State.polled_lOp : s.polled.lOp = s.lOp := rfl
@[simp] theorem State.polled_lId : s.polled.lId = s.lId := rfl
@[simp] theorem State.polled_lAddr : s.polled.lAddr = s.lAddr := rfl
@[simp] theorem State.polled_lLen : s.polled.lLen = s.lLen := rfl
@[simp] theorem State.polled_lN : s.polled.lN = s.lN := rfl
@[simp] theorem State.polled_lExpLen : s.polled.lExpLen = s.lExpLen := rfl
@[simp] theorem State.polled_lTx : s.polled.lTx = s.lTx := rfl
@[simp] theorem State.polled_txTouched : s.polled.txTouched = s.txTouched := rfl
@[simp] theorem State.polled_phase : s.polled.phase = s.phase := rfl
@[simp] theorem State.polled_result : s.polled.result = s.result := rfl
@[simp] theorem State.polled_dir : s.polled.dir = s.dir := rfl
@[simp] theorem State.polled_devId : s.polled.devId = s.devId := rfl
@[simp] theorem State.polled_devErr : s.polled.devErr = s.devErr := rfl
@[simp] theorem State.polled_callOp : s.polled.callOp = s.callOp := rfl
@[simp] theorem State.polled_callAddr : s.polled.callAddr = s.callAddr := rfl
@[simp] theorem State.polled_callLen : s.polled.callLen = s.callLen := rfl
@[simp] theorem State.polled_presented : s.polled.presented = s.presented := rfl
@[simp] theorem State.polled_txbuf : s.polled.txbuf = s.txbuf := rfl
@[simp] theorem State.polled_rxbuf : s.polled.rxbuf = s.rxbuf := rfl
@[simp] theorem State.polled_resetReq : s.polled.resetReq = s.resetReq := rfl
@[simp] theorem State.polled_trace : s.polled.trace = s.trace ++ [.rx s.pollByte] := rfl
@[simp] theorem State.polled_sendAnswers : s.polled.sendAnswers = s.sendAnswers := rfl
@[simp] theorem State.polled_busyAnswers : s.polled.busyAnswers = s.busyAnswers := rfl
@[simp] theorem State.polled_rxAnswers : s.polled.rxAnswers = s.rxAnswers.tail := rfl
@[simp] theorem State.polled_draws : s.polled.draws = s.draws + (1 - s.rxAnswers.length) := rfl

/-! `State.taken` -/

@[simp] theorem State.taken_cfg : s.taken.cfg = s.cfg := rfl
@[simp] theorem State.taken_acc : s.taken.acc = s.acc + s.pollByte := rfl
@[simp] theorem State.taken_errStage : s.taken.errStage = s.errStage := rfl
@[simp] theorem State.taken_scanCnt : s.taken.scanCnt = s.scanCnt := rfl
@[simp] theorem State.taken_pidx : s.taken.pidx = s.pidx := rfl
@[simp] theorem State.taken_lOp : s.taken.lOp = s.lOp := rfl
@[simp] theorem State.taken_lId : s.taken.lId = s.lId := rfl
@[simp] theorem State.taken_lAddr : s.taken.lAddr = s.lAddr := rfl
@[simp] theorem State.taken_lLen : s.taken.lLen = s.lLen := rfl
@[simp] theorem State.taken_lN : s.taken.lN = s.lN := rfl
@[simp] theorem State.taken_lExpLen : s.taken.lExpLen = s.lExpLen := rfl
@[simp] theorem State.taken_lTx : s.taken.lTx = s.lTx := rfl
@[simp] theorem State.taken_txTouched : s.taken.txTouched = s.txTouched := rfl
@[simp] theorem State.taken_phase : s.taken.phase = s.phase := rfl
@[simp] theorem State.taken_result : s.taken.result = s.result := rfl
@[simp] theorem State.taken_dir : s.taken.dir = s.dir := rfl
@[simp] theorem State.taken_devId : s.taken.devId = s.devId := rfl
@[simp] theorem State.taken_devErr : s.taken.devErr = s.devErr := rfl
@[simp] theorem State.taken_callOp : s.taken.callOp = s.callOp := rfl
@[simp] theorem State.taken_callAddr : s.taken.callAddr = s.callAddr := rfl
@[simp] theorem State.taken_callLen : s.taken.callLen = s.callLen := rfl
@[simp] theorem State.taken_presented : s.taken.presented = s.presented := rfl
@[simp] theorem State.taken_txbuf : s.taken.txbuf = s.txbuf := rfl
@[simp] theorem State.taken_rxbuf : s.taken.rxbuf = s.rxbuf := rfl
@[simp] theorem State.taken_resetReq : s.taken.resetReq = s.resetReq := rfl
@[simp] theorem State.taken_trace : s.taken.trace = s.trace ++ [.rx s.pollByte] := rfl
@[simp] theorem State.taken_sendAnswers : s.taken.sendAnswers = s.sendAnswers := rfl
@[simp] theorem State.taken_busyAnswers : s.taken.busyAnswers = s.busyAnswers := rfl
@[simp] theorem State.taken_rxAnswers : s.taken.rxAnswers = s.rxAnswers.tail := rfl
@[simp] theorem State.taken_draws : s.taken.draws = s.draws + (1 - s.rxAnswers.length) := rfl

end Sys2Proof.Machine
end

