-- ==== Sys2Proof/Laws/Ops.lean ====
section
/-!
SUPPORT. What the shared operations can do: the polls, one after another (spec/20_memory.md R56), the sends (R54),
what is kept in mind of TXBUF (spec/10_state.md R34), the admission of a call (spec/42_instructions.md R169).
-/
namespace Sys2Proof.Machine

/-! ## Polls -/

theorem State.pollAt_zero (s : State) : s.pollAt 0 = s.pollByte := by
  unfold State.pollAt State.pollByte
  cases s.rxAnswers <;> simp

theorem State.heard_zero (s : State) : s.heard 0 = s := by
  simp [State.heard]

/-- The poll after `k` others returns `pollAt k`. -/
theorem State.pollByte_heard (s : State) (k : Nat) : (s.heard k).pollByte = s.pollAt k := by
  unfold State.pollByte State.pollAt State.heard
  by_cases h : k < s.rxAnswers.length
  · have hd := List.drop_eq_getElem_cons h
    simp only [hd, List.getElem?_eq_getElem h, Option.getD_some]
  · have h' : s.rxAnswers.length ≤ k := by omega
    simp [List.drop_eq_nil_of_le h', h']

/-- One more poll. -/
theorem State.polled_heard (s : State) (k : Nat) : (s.heard k).polled = s.heard (k + 1) := by
  have hb := State.pollByte_heard s k
  have hd : s.draws + (k - s.rxAnswers.length) + (1 - (s.rxAnswers.length - k)) = s.draws + (k + 1 - s.rxAnswers.length) := by
    omega
  unfold State.polled
  rw [hb]
  simp only [State.log, State.heard, List.length_drop, hd, List.tail_drop, List.range_succ, List.map_append, List.map_cons, List.map_nil,
    List.append_assoc]

/-! ## Sends -/

/-- When the transport's next answer is yes, the byte is sent and the block goes on. -/
theorem sendByte_ready {s : State} {rest : List Bool} (h : s.sendAnswers = true :: rest) (b : Byte)
    (k : State → State) : sendByte b k s = .moves (k ({ s with sendAnswers := rest }.log (.tx b))) := by
  simp [sendByte, State.sendReady, State.sendAsked, h]

/-- When it is no, nothing happens but that the answer is used up. -/
theorem sendByte_waits {s : State} {rest : List Bool} (h : s.sendAnswers = false :: rest) (b : Byte)
    (k : State → State) : sendByte b k s = .rests { s with sendAnswers := rest } := by
  simp [sendByte, State.sendReady, State.sendAsked, h]

/-- What a send can do. -/
theorem sendByte_cases (b : Byte) (k : State → State) (s : State) :
    (sendByte b k s = .moves (k (s.sendAsked.log (.tx b))) ∧ s.sendReady = true) ∨
    (sendByte b k s = .rests s.sendAsked ∧ s.sendReady = false) := by
  unfold sendByte
  cases s.sendReady <;> simp

/-! ## TXBUF -/

/-- Outside the packet writer nothing is kept in mind of TXBUF. -/
theorem State.watched_of_reader {s : State} (h : s.phase.writes = false) : s.watched = s := by
  simp [State.watched, h]

/-- A call that sends no data does not look at TXBUF. -/
theorem State.watched_of_plain {s : State} (h : sendsData s.lOp = false) : s.watched = s := by
  simp [State.watched, h]

/-- A TXBUF the host has left alone: nothing to keep in mind. -/
theorem State.watched_of_unchanged {s : State} (h : s.txChanged = false) : s.watched = s := by
  simp [State.watched, h]

/-- Once a change of TXBUF is kept in mind, a data byte is free whatever TXBUF then holds (R34, R70). -/
theorem State.dataByte_of_touched {s : State} (h : s.txTouched = true) : s.dataByte = none := by
  simp [State.dataByte, State.txChanged, h]

/-! ## Admission -/

/-- An admitted call answers what its acceptance gives (R169). -/
theorem admitCall_eq_next {s t : State} {id : Byte} {o : Host.Outcome State Fault Refusal}
    (h : admitCall s id o = .next t) : s.phase = .idle ∧ idLegal id = true ∧ o = .next t := by
  unfold admitCall at h
  split at h
  · cases h
  · split at h
    · cases h
    · rename_i h1 h2
      exact ⟨by simpa using h1, by simpa using h2, h⟩

theorem admitCall_idle {s : State} {id : Byte} {o : Host.Outcome State Fault Refusal}
    (h1 : s.phase = .idle) (h2 : idLegal id = true) : admitCall s id o = o := by
  simp [admitCall, h1, h2]

end Sys2Proof.Machine
end

