-- ==== Sys2Proof/Laws/PerInstr.lean ====
section
/-!
SUPPORT. What is said of every instruction as syntax: how its bytes open and how many of them follow the header
(spec/30_encoding.md R80 to R83).
-/
namespace Sys2Proof.Laws.Wire

open Sys2Proof.Machine

/-- The bytes of a well-formed instruction open with a header that carries its id; after it stand as many bytes as the
length byte says, and in a status packet one more, the checksum. -/
def Statement (i : Instr) : Prop :=
  i.wellFormed = true → ∀ c : Params, ∃ (len fifth : Byte) (rest : List Byte),
    encode c i = header (targetOf i) len fifth ++ rest ∧
      rest.length = len.toNat - Config.lenOverhead + if i.format = .sts then 1 else 0

/-- The length byte does not wrap while the parameters are at most MAX_PARAM (R83). -/
theorem lengthByte_toNat {n : Nat} (h : n ≤ Config.maxParam) : (lengthByte n).toNat = n + Config.lenOverhead := by
  simp only [Config.maxParam] at h
  simp only [lengthByte, Config.lenOverhead, BitVec.toNat_ofNat]
  omega

theorem ping (id : Byte) : Statement (.ping id) := fun _ _ => ⟨_, _, [], rfl, rfl⟩

theorem read (id address length : Byte) : Statement (.read id address length) := fun _ _ => ⟨_, _, _, rfl, rfl⟩

theorem buffer_length {buffer : List Byte} (h : bufferLegal buffer = true) :
    (lengthByte (buffer.length + 1)).toNat = buffer.length + 1 + Config.lenOverhead :=
  lengthByte_toNat (of_decide_eq_true h)

theorem write (id address : Byte) (buffer : List Byte) : Statement (.write id address buffer) := by
  intro h c
  simp only [Instr.wellFormed, Bool.and_eq_true] at h
  refine ⟨_, _, address :: buffer, rfl, ?_⟩
  rw [buffer_length h.2]
  rfl

theorem regWrite (id address : Byte) (buffer : List Byte) : Statement (.regWrite id address buffer) := by
  intro h c
  simp only [Instr.wellFormed, Bool.and_eq_true] at h
  refine ⟨_, _, address :: buffer, rfl, ?_⟩
  rw [buffer_length h.2]
  rfl

theorem action (id : Byte) : Statement (.action id) := fun _ _ => ⟨_, _, [], rfl, rfl⟩

theorem reset (id : Byte) : Statement (.reset id) := fun _ _ => ⟨_, _, [], rfl, rfl⟩

theorem status (id len err : Byte) (params : List Byte) (chk : Byte) : Statement (.status id len err params chk) := by
  intro h c
  have h : params.length = len.toNat - Config.lenOverhead := of_decide_eq_true h
  refine ⟨len, err, params ++ [chk], List.append_assoc _ _ _, ?_⟩
  simp only [List.length_append, List.length_singleton, h]
  rfl

end Sys2Proof.Laws.Wire
end

