-- ==== Sys2Proof/Laws/Sequencer.lean ====
section
/-!
SUPPORT. The sequencer's runs: a chain of ticks that move (`movesTo`), how `runTicks` follows it, and the induction that
carries a property of every tick to every run and every meaning.
-/
namespace Sys2Proof.Machine

/-- The state a tick leads to, whether the block moves or rests. -/
def Progress.state : Progress → State
  | .moves t => t
  | .rests t => t

theorem sendByte_state (b : Byte) (k : State → State) (s : State) :
    (sendByte b k s).state = if s.sendReady then k (s.sendAsked.log (.tx b)) else s.sendAsked := by
  unfold sendByte; split <;> rfl

theorem emit_state (b : Byte) (k : State → State) (s : State) :
    (emit b k s).state = if s.sendReady then k ((s.sendAsked.log (.tx b)).addAcc b) else s.sendAsked := by
  unfold emit; rw [sendByte_state]

/-- `n` ticks that all move lead from one state to the other. -/
def movesTo : Nat → State → State → Prop
  | 0, s, t => s = t
  | n + 1, s, t => ∃ u, tick s = .moves u ∧ movesTo n u t

theorem movesTo_trans {m n : Nat} {s t u : State} (h1 : movesTo m s t) (h2 : movesTo n t u) :
    movesTo (m + n) s u := by
  induction m generalizing s with
  | zero => cases h1; simpa using h2
  | succ m ih =>
    obtain ⟨v, hv, h⟩ := h1
    rw [Nat.succ_add]
    exact ⟨v, hv, ih h⟩

theorem movesTo_one {s t : State} (h : tick s = .moves t) : movesTo 1 s t := ⟨t, h, rfl⟩

/-- A run follows a chain of moves. -/
theorem runTicks_movesTo {k n : Nat} {s t : State} (h : movesTo k s t) : runTicks (k + n) s = runTicks n t := by
  induction k generalizing s with
  | zero => cases h; simp
  | succ k ih =>
    obtain ⟨u, hu, h⟩ := h
    rw [Nat.succ_add, runTicks, hu]
    exact ih h

/-- A run that comes to rest within its ticks ends there. -/
theorem proceed_of_movesTo {k : Nat} {s t u : State} (h : movesTo k s.watched t) (hr : tick t = .rests u)
    (hk : k < s.ticks) : proceed s = u := by
  obtain ⟨n, hn⟩ : ∃ n, s.ticks = k + (n + 1) := ⟨s.ticks - k - 1, by omega⟩
  rw [proceed, hn, runTicks_movesTo h, runTicks, hr]

/-- Packaged induction: what every tick keeps, every run keeps. -/
theorem runTicks_keeps {P : State → Prop} (hP : ∀ s, P s → P (tick s).state) (n : Nat) (s : State) (h : P s) :
    P (runTicks n s) := by
  induction n generalizing s with
  | zero => exact h
  | succ n ih =>
    have ht := hP s h
    unfold runTicks
    cases hts : tick s with
    | moves t => rw [hts] at ht; exact ih t ht
    | rests t => rw [hts] at ht; exact ht

theorem proceed_keeps {P : State → Prop} (hW : ∀ s, P s → P s.watched) (hP : ∀ s, P s → P (tick s).state) (s : State)
    (h : P s) : P (proceed s) := runTicks_keeps hP _ _ (hW s h)

/-- What a meaning can do: a call is admitted and run, or a status packet is received and the block runs on. -/
theorem exec_cases {i : Instr} {s t : State} (h : exec i s = .next t) :
    (admissible i s = true ∧ t = proceed (s.acceptedAs i)) ∨
    (∃ id len err params chk, i = .status id len err params chk ∧ t = proceed (s.receive (encode s.cfg i))) := by
  cases i with
  | ping id =>
    obtain ⟨h1, h2, h3⟩ := admitCall_eq_next h
    cases h3
    exact .inl ⟨by simp [admissible, Instr.format, Instr.wellFormed, replyFits, replyLen, h1, h2], rfl⟩
  | read id address length =>
    obtain ⟨h1, h2, h3⟩ := admitCall_eq_next h
    split at h3
    · cases h3
    · split at h3
      · cases h3
      · rename_i h4 h5
        cases h3
        have hr : replyFits (.read id address length) s = true := decide_eq_true (Nat.le_of_not_lt h5)
        exact .inl ⟨by simp [admissible, Instr.format, Instr.wellFormed, hr, h1, h2, Bool.eq_true_of_not_eq_false h4], rfl⟩
  | write id address buffer =>
    obtain ⟨h1, h2, h3⟩ := admitCall_eq_next h
    split at h3
    · cases h3
    · rename_i h4
      cases h3
      exact .inl ⟨by simp [admissible, Instr.format, Instr.wellFormed, replyFits, replyLen, h1, h2,
        Bool.eq_true_of_not_eq_false h4], rfl⟩
  | regWrite id address buffer =>
    obtain ⟨h1, h2, h3⟩ := admitCall_eq_next h
    split at h3
    · cases h3
    · rename_i h4
      cases h3
      exact .inl ⟨by simp [admissible, Instr.format, Instr.wellFormed, replyFits, replyLen, h1, h2,
        Bool.eq_true_of_not_eq_false h4], rfl⟩
  | action id =>
    obtain ⟨h1, h2, h3⟩ := admitCall_eq_next h
    cases h3
    exact .inl ⟨by simp [admissible, Instr.format, Instr.wellFormed, replyFits, replyLen, h1, h2], rfl⟩
  | reset id =>
    obtain ⟨h1, h2, h3⟩ := admitCall_eq_next h
    cases h3
    exact .inl ⟨by simp [admissible, Instr.format, Instr.wellFormed, replyFits, replyLen, h1, h2], rfl⟩
  | status id len err params chk =>
    cases h
    exact .inr ⟨id, len, err, params, chk, rfl, rfl⟩

/-- What a step can do: a reset, a call or packet run, or the block runs on. -/
theorem step_cases {s t : State} (h : step s = .next t) :
    (s.resetReq = true ∧ t = s.hardReset) ∨
    (s.resetReq = false ∧ s.presented = true ∧ ∃ i, s.fetch = .ok i ∧ exec i s.takeRequest = .next t) ∨
    (s.resetReq = false ∧ s.presented = false ∧ t = proceed s) := by
  unfold step at h
  split at h
  · rename_i h1
    cases h
    exact .inl ⟨h1, rfl⟩
  · rename_i h1
    split at h
    · rename_i h2
      split at h
      · rename_i i hi
        exact .inr (.inl ⟨by simpa using h1, h2, i, hi, h⟩)
      · cases h
    · rename_i h2
      cases h
      exact .inr (.inr ⟨by simpa using h1, by simpa using h2, rfl⟩)

end Sys2Proof.Machine
end

