-- ==== Sys2Proof/Tests/Slice0.lean ====
section
/-!
SUPPORT. Tests. Expected values are the spec's: the vectors V, X and P of spec/95_test_vectors.md, the tables of
spec/42_instructions.md and spec/43_register_convenience.md. After them, for each obligation with hypotheses, a witness:
a concrete case that meets them together.
-/
namespace Sys2Proof.Tests

open Sys2Proof Sys2Proof.Machine

/-! ## Well-formedness: each check refuses an ill-formed term -/

theorem test_illformed_ids : (Instr.ping 255).wellFormed = false ∧ (Instr.action 255).wellFormed = false ∧
    (Instr.reset 255).wellFormed = false ∧ (Instr.read 255 0 0).wellFormed = false ∧
    (Instr.write 255 0 []).wellFormed = false ∧ (Instr.regWrite 255 0 []).wellFormed = false := by decide

theorem test_legal_ids : (Instr.ping 0).wellFormed = true ∧ (Instr.ping 253).wellFormed = true ∧
    (Instr.ping 254).wellFormed = true := by decide

/-- V66: 254 and 255 are refused, 253 is accepted. -/
theorem test_illformed_read : (Instr.read 1 36 254).wellFormed = false ∧ (Instr.read 1 36 255).wellFormed = false ∧
    (Instr.read 1 36 253).wellFormed = true := by decide

/-- V66: 253 data bytes are refused, 252 accepted. -/
theorem test_illformed_write : (Instr.write 1 0 (List.replicate 253 0)).wellFormed = false ∧
    (Instr.regWrite 1 0 (List.replicate 253 0)).wellFormed = false := by decide +kernel
theorem test_longest_write : (Instr.write 1 0 (List.replicate 252 0)).wellFormed = true := by decide +kernel

theorem test_illformed_status : (Instr.status 1 3 0 [] 0).wellFormed = false ∧
    (Instr.status 1 3 0 [0] 0).wellFormed = true := by decide

/-! ## Decoding: words written out from the encodings -/

/-- V1, R81: FF FF, id 01, len 02, instr 01; the checksum is no operand. -/
theorem test_decode_ping : decode Config.params .cmd [0xFF, 0xFF, 0x01, 0x02, 0x01, 0xFB] = .ok (.ping 1, [0xFB]) := by decide
/-- V5: parameters address 24, length 02. -/
theorem test_decode_read :
    decode Config.params .cmd [0xFF, 0xFF, 0x01, 0x04, 0x02, 0x24, 0x02, 0xD2] = .ok (.read 1 36 2, [0xD2]) := by decide
/-- V14: an FF among the data is data. -/
theorem test_decode_write : decode Config.params .cmd [0xFF, 0xFF, 0x01, 0x07, 0x03, 0x06, 0x00, 0x00, 0xFF, 0x03, 0xEC] =
    .ok (.write 1 6 [0x00, 0x00, 0xFF, 0x03], [0xEC]) := by decide
/-- V13: no data, the address alone. -/
theorem test_decode_write_empty :
    decode Config.params .cmd [0xFF, 0xFF, 0x01, 0x03, 0x03, 0x1E, 0xDA] = .ok (.write 1 30 [], [0xDA]) := by decide
/-- V20. -/
theorem test_decode_regWrite : decode Config.params .cmd [0xFF, 0xFF, 0x00, 0x05, 0x04, 0x1E, 0xF4, 0x01, 0xE3] =
    .ok (.regWrite 0 30 [0xF4, 0x01], [0xE3]) := by decide
/-- V21. -/
theorem test_decode_action : decode Config.params .cmd [0xFF, 0xFF, 0xFE, 0x02, 0x05, 0xFA] = .ok (.action 0xFE, [0xFA]) := by decide
/-- V24. -/
theorem test_decode_reset : decode Config.params .cmd [0xFF, 0xFF, 0xFE, 0x02, 0x06, 0xF9] = .ok (.reset 0xFE, [0xF9]) := by decide
/-- X2: the status packet of the Read scenario, bytes behind it left over. -/
theorem test_decode_status : decode Config.params .sts [0xFF, 0xFF, 0x01, 0x04, 0x00, 0x10, 0x00, 0xEA, 0x77] =
    .ok (.status 1 4 0 [0x10, 0x00] 0xEA, [0x77]) := by decide

/-- R93, R94: a seventh code, a wrong length byte, a wrong marker, the id 255, a short packet are rejected by name. -/
theorem test_decode_rejects :
    decode Config.params .cmd [0xFF, 0xFF, 1, 2, 7] = .error (.unknownOperation 7) ∧
    decode Config.params .cmd [0xFF, 0xFF, 1, 3, 1, 0] = .error .badLength ∧
    decode Config.params .cmd [0xFF, 0xFF, 1, 2, 3] = .error .badLength ∧
    decode Config.params .cmd [0xFF, 0xFF, 1, 0, 3, 0] = .error .badLength ∧
    decode Config.params .cmd [0xFF, 0xFE, 1, 2, 1] = .error .noMarker ∧
    decode Config.params .cmd [0xFF, 0xFF, 0xFF, 2, 1] = .error .idReserved ∧
    decode Config.params .cmd [0xFF, 0xFF, 1, 4, 2, 36, 254] = .error .replyTooLong ∧
    decode Config.params .cmd [0xFF, 0xFF, 1, 4, 2, 36] = .error .truncated ∧
    decode Config.params .sts [0xFF, 0xFF, 1, 4, 0, 0x10, 0] = .error .truncated := by decide

/-- R88: the rows of the opcode table, by their match values; the zeros behind the header are operands of 0. -/
theorem test_table_words :
    decodeTableWord 40 0xFFFF000201 = some (.ping 0) ∧ decodeTableWord 40 0xFFFF050402 = some (.read 5 0 0) ∧
    decodeTableWord 40 0xFFFF000003 = some (.write 0 0 []) ∧ decodeTableWord 40 0xFFFF050504 = some (.regWrite 5 0 [0, 0]) ∧
    decodeTableWord 40 0xFFFF000205 = some (.action 0) ∧ decodeTableWord 40 0xFFFF000206 = some (.reset 0) ∧
    decodeTableWord 40 0xFFFF000000 = some (.status 0 0 0 [] 0) := by decide

/-- R88: a header that selects only the row STATUS is a status packet, whatever its fifth byte; one that selects a CMD row is
that command, and where its id is 255 no instruction. -/
theorem test_table_formats :
    decodeTableWord 40 0xFFFF010501 = some (.status 1 5 1 [0, 0, 0] 0) ∧
    decodeTableWord 40 0xFFFF010203 = some (.write 1 0 []) ∧ decodeTableWord 40 0xFFFFFF0201 = none := by decide

/-- A table word placed at reset is run by the very next step. -/
theorem test_first_step_runs :
    step (State.reset.withFetchWord 40 0xFFFF010201) =
      exec (.ping 1) (State.reset.withFetchWord 40 0xFFFF010201).takeRequest := rfl

/-! ## The command packet -/

/-- V4: the sum wraps to 00, the checksum byte is FF; V15: sum 302. -/
theorem test_packet_wraps : packetOf Config.params (.ping 253) = [0xFF, 0xFF, 0xFD, 0x02, 0x01, 0xFF] ∧
    packetOf Config.params (.write 253 0xFF [0xFF]) = [0xFF, 0xFF, 0xFD, 0x04, 0x03, 0xFF, 0xFF, 0xFD] := by decide

/-- V9, V18, V22, V23. -/
theorem test_packets : packetOf Config.params (.write 1 30 [0, 2]) = [0xFF, 0xFF, 0x01, 0x05, 0x03, 0x1E, 0x00, 0x02, 0xD6] ∧
    packetOf Config.params (.regWrite 1 30 [0, 2]) = [0xFF, 0xFF, 0x01, 0x05, 0x04, 0x1E, 0x00, 0x02, 0xD5] ∧
    packetOf Config.params (.action 1) = [0xFF, 0xFF, 0x01, 0x02, 0x05, 0xF7] ∧
    packetOf Config.params (.reset 1) = [0xFF, 0xFF, 0x01, 0x02, 0x06, 0xF6] := by decide

/-- V16: 252 data bytes FF, 259 bytes in all, checksum F8. -/
theorem test_packet_longest : (packetOf Config.params (.write 1 0 (List.replicate 252 0xFF))).length = 259 ∧
    (packetOf Config.params (.write 1 0 (List.replicate 252 0xFF))).getLast? = some 0xF8 := by decide +kernel

/-! ## The parser as a function -/

/-- The bytes of a list, then zeros. -/
def pollsOf (bytes : List Byte) (k : Nat) : Byte := bytes.getD k 0

/-- V27, V28, V29: bytes skipped; marker at poll 20; no marker in 20 polls. -/
theorem test_parse_scan :
    (parseStatus 20 1 0 (pollsOf [0x00, 0x12, 0x7F, 0xFF, 0xFF, 1, 2, 0, 0xFC])).polls = 9 ∧
    (parseStatus 20 1 0 (pollsOf (List.replicate 19 0 ++ [0xFF, 0xFF, 1, 2, 0, 0xFC]))).polls = 25 ∧
    (parseStatus 20 1 0 (pollsOf (List.replicate 19 0 ++ [0xFF, 0xFF, 1, 2, 0, 0xFC]))).result = .success ∧
    (parseStatus 20 1 0 (pollsOf (List.replicate 20 0 ++ [0xFF, 0xFF, 1, 2, 0, 0xFC]))) =
      ⟨.frameNotFound, 20, 20, []⟩ := by decide

/-- V31, V32, V34, V53, V49. -/
theorem test_parse_checks :
    (parseStatus 20 1 0 (pollsOf [0xFF, 0xFF, 0xFF, 1, 2, 0, 0xFC])).result = .idMismatch ∧
    (parseStatus 20 0xFE 0 (pollsOf [0xFF, 0xFF, 0xFF, 1, 2, 0, 0xFC])).result = .lengthMismatch ∧
    (parseStatus 20 0xFE 0 (pollsOf [0xFF, 0xFF, 7, 2, 0, 0xF6])).result = .success ∧
    (parseStatus 20 1 0 (pollsOf [0xFF, 0xFF, 2, 7])).result = .idMismatch ∧
    (parseStatus 20 1 2 (pollsOf [0xFF, 0xFF, 1, 5, 0, 0x10, 0, 0xEA])).result = .lengthMismatch := by decide

/-- V37: false acceptance; V39: one off; V42: one bit of the error byte; V48: compensating errors. -/
theorem test_parse_checksum :
    (parseStatus 20 1 2 (pollsOf [0xFF, 0xFF, 1, 4, 0, 0x10, 0xEA, 0x00])).result = .success ∧
    (parseStatus 20 1 2 (pollsOf [0xFF, 0xFF, 1, 4, 0, 0x10, 0x00, 0xEB])).result = .checksumMismatch ∧
    (parseStatus 20 1 2 (pollsOf [0xFF, 0xFF, 1, 4, 0x80, 0x10, 0x00, 0xEA])).result = .checksumMismatch ∧
    (parseStatus 20 1 2 (pollsOf [0xFF, 0xFF, 1, 4, 0, 0x11, 0xFF, 0xEA])).result = .success := by decide

/-! ## Whole calls -/

/-- An idle block: the start state of spec/95_test_vectors.md (`dev.err` 55, RXBUF AA AA), its registers arbitrary; the
transport accepts `sends` bytes and gives the answers listed. -/
def idleWith (sends : Nat) (busy : List Bool) (polls txbuf : List Byte) : State where
  cfg := Config.params
  acc := 0x11
  errStage := 0x22
  scanCnt := 3
  pidx := 4
  lOp := .read
  lId := 9
  lAddr := 8
  lLen := 7
  lN := 6
  lExpLen := 1
  lTx := []
  txTouched := false
  phase := .idle
  result := .lengthMismatch
  dir := .receive
  devId := 1
  devErr := 0x55
  callOp := 0x02
  callAddr := 36
  callLen := 2
  presented := false
  txbuf := txbuf
  rxbuf := [0xAA, 0xAA]
  resetReq := false
  trace := []
  sendAnswers := List.replicate sends true
  busyAnswers := busy
  rxAnswers := polls
  draws := 0

/-- The state a call leads to. -/
def after (i : Instr) (s : State) : State :=
  match exec i s with
  | .next t => t
  | .fault _ => s
  | .refused _ => s

/-- X1, V54 without the busy answers. -/
theorem test_ping_trace :
    (after (.ping 1) (idleWith 6 [false] [0xFF, 0xFF, 1, 2, 0, 0xFC] [])).trace =
      [.dir .transmit, .tx 0xFF, .tx 0xFF, .tx 1, .tx 2, .tx 1, .tx 0xFB, .busy false, .dir .receive,
       .rx 0xFF, .rx 0xFF, .rx 1, .rx 2, .rx 0, .rx 0xFC] := by decide
/-- V63: a broadcast Ping reads a reply of any id. -/
theorem test_ping_broadcast :
    (after (.ping 0xFE) (idleWith 6 [false] [0xFF, 0xFF, 7, 2, 0, 0xF6] [])).result = .success ∧
    (after (.ping 0xFE) (idleWith 6 [false] [0xFF, 0xFF, 7, 2, 0, 0xF6] [])).devErr = 0 := by decide

/-- X2, V55, V85: result, RXBUF, `dev.err`, ACC. -/
theorem test_read_reply :
    (after (.read 1 36 2) (idleWith 8 [false] [0xFF, 0xFF, 1, 4, 0x24, 0x10, 0, 0xC6] [])).result = .success ∧
    (after (.read 1 36 2) (idleWith 8 [false] [0xFF, 0xFF, 1, 4, 0x24, 0x10, 0, 0xC6] [])).rxbuf = [0x10, 0] ∧
    (after (.read 1 36 2) (idleWith 8 [false] [0xFF, 0xFF, 1, 4, 0x24, 0x10, 0, 0xC6] [])).devErr = 0x24 ∧
    (after (.read 1 36 2) (idleWith 8 [false] [0xFF, 0xFF, 1, 4, 0x24, 0x10, 0, 0xC6] [])).acc = 0x39 := by decide
/-- V84: the checksum is wrong: `dev.err` untouched, ERR_STAGE and ACC as the steps left them. -/
theorem test_read_bad_checksum :
    (after (.read 1 36 2) (idleWith 8 [false] [0xFF, 0xFF, 1, 4, 0x24, 0x10, 0, 0xEA] [])).result = .checksumMismatch ∧
    (after (.read 1 36 2) (idleWith 8 [false] [0xFF, 0xFF, 1, 4, 0x24, 0x10, 0, 0xEA] [])).devErr = 0x55 ∧
    (after (.read 1 36 2) (idleWith 8 [false] [0xFF, 0xFF, 1, 4, 0x24, 0x10, 0, 0xEA] [])).errStage = 0x24 ∧
    (after (.read 1 36 2) (idleWith 8 [false] [0xFF, 0xFF, 1, 4, 0x24, 0x10, 0, 0xEA] [])).acc = 0x39 := by decide

/-- X3, V56: a broadcast Write reads nothing. -/
theorem test_write_broadcast :
    (after (.write 0xFE 25 [1]) (idleWith 8 [false] [0xFF] [1])).trace =
      [.dir .transmit, .tx 0xFF, .tx 0xFF, .tx 0xFE, .tx 4, .tx 3, .tx 0x19, .tx 1, .tx 0xE0] ∧
    (after (.write 0xFE 25 [1]) (idleWith 8 [false] [0xFF] [1])).acc = 0x1F := by decide
/-- V64: the reply carries a new id: `IdMismatch` after 3 polls, `dev.id` still 1. -/
theorem test_write_id_change :
    (after (.write 1 3 [2]) (idleWith 8 [false] [0xFF, 0xFF, 2, 2, 0, 0xFB] [2])).result = .idMismatch ∧
    (after (.write 1 3 [2]) (idleWith 8 [false] [0xFF, 0xFF, 2, 2, 0, 0xFB] [2])).rxAnswers = [2, 0, 0xFB] ∧
    (after (.write 1 3 [2]) (idleWith 8 [false] [0xFF, 0xFF, 2, 2, 0, 0xFB] [2])).devId = 1 := by decide

/-- V58. -/
theorem test_regWrite_trace :
    (after (.regWrite 2 30 [0xFF, 3]) (idleWith 9 [false] [0xFF, 0xFF, 2, 2, 0, 0xFB] [0xFF, 3])).trace =
      [.dir .transmit, .tx 0xFF, .tx 0xFF, .tx 2, .tx 5, .tx 4, .tx 0x1E, .tx 0xFF, .tx 3, .tx 0xD4,
       .busy false, .dir .receive, .rx 0xFF, .rx 0xFF, .rx 2, .rx 2, .rx 0, .rx 0xFB] := by decide

/-- V60: a unicast Action reads nothing. -/
theorem test_action_unicast :
    (after (.action 1) (idleWith 6 [false] [0xFF] [])).trace =
      [.dir .transmit, .tx 0xFF, .tx 0xFF, .tx 1, .tx 2, .tx 5, .tx 0xF7] ∧
    (after (.action 1) (idleWith 6 [false] [0xFF] [])).result = .success := by decide

/-- V61, V65: Reset with a reply; no device, every poll 00. -/
theorem test_reset_reply :
    (after (.reset 1) (idleWith 6 [false] [0xFF, 0xFF, 1, 2, 0, 0xFC] [])).result = .success ∧
    (after (.reset 1) (idleWith 6 [false] (List.replicate 20 0) [])).result = .frameNotFound := by decide

/-- R116: the transport accepts two bytes and then no more: the call waits in its phase. -/
theorem test_send_waits :
    (after (.ping 1) { idleWith 0 [] [] [] with sendAnswers := [true, true, false] }).phase = .wId ∧
    (after (.ping 1) { idleWith 0 [] [] [] with sendAnswers := [true, true, false] }).trace =
      [.dir .transmit, .tx 0xFF, .tx 0xFF] := by decide

/-- R25, R34: each APPEND starts PIDX at 0, so behind the address and two data bytes it counts two; behind the address
alone it is 0. -/
theorem test_pidx_per_append :
    (after (.write 0xFE 25 [1, 2]) (idleWith 9 [] [] [1, 2])).pidx = 2 ∧
    (after (.write 0xFE 25 []) (idleWith 7 [] [] [])).pidx = 0 ∧
    (after (.read 0xFE 36 2) (idleWith 8 [] [] [])).pidx = 2 := by decide

/-- The Write of [07, 08] waits for its first data byte. -/
def waitingWrite : State := after (.write 0xFE 25 [7, 8]) { idleWith 6 [] [] [7, 8] with sendAnswers :=
  [true, true, true, true, true, true, false, true, false] }

/-- R34, R70: the host changes TXBUF, a free byte goes out, the host restores TXBUF: the next data byte is still free. -/
theorem test_txbuf_changed_and_restored :
    let changed := proceed { waitingWrite with txbuf := [9, 8] }
    waitingWrite.phase = .wParam 1 ∧ changed.phase = .wParam 2 ∧ changed.txTouched = true ∧
      { changed with txbuf := [7, 8] }.knownParam 2 = none ∧ (proceed waitingWrite).knownParam 2 = some 8 := by
  decide

/-- R132: the line is busy: the call waits in the drain wait. -/
theorem test_drain_waits : (after (.ping 1) (idleWith 6 [true, false] [] [])).phase = .rDrain := by decide

/-- A block in the marker scan of a Read of two bytes from device 1. -/
def listeningState : State :=
  { idleWith 0 [] [] [] with
    lOp := .read, lId := 1, lExpLen := 2, phase := .rScan, scanCnt := 0
    trace := [.dir .transmit, .busy false, .dir .receive] }

/-- X2 as the STATUS row: the packet is received and the Read returns. -/
theorem test_status_received :
    (after (.status 1 4 0 [0x10, 0] 0xEA) listeningState).result = .success ∧
    (after (.status 1 4 0 [0x10, 0] 0xEA) listeningState).rxbuf = [0x10, 0] ∧
    (after (.status 1 4 0 [0x10, 0] 0xEA) listeningState).phase = .idle := by decide
/-- V50: the wrong device; the rest of its packet stays unread. -/
theorem test_status_wrong_id :
    (after (.status 5 4 0 [0x10, 0] 0xEA) listeningState).result = .idMismatch ∧
    (after (.status 5 4 0 [0x10, 0] 0xEA) listeningState).rxAnswers = [4, 0, 0x10, 0, 0xEA] := by decide

/-- V66: refused calls. -/
theorem test_refused :
    exec (.ping 255) (idleWith 6 [] [] []) = .refused .idReserved ∧
    exec (.read 1 36 254) (idleWith 8 [] [] []) = .refused .replyTooLong ∧
    exec (.ping 1) listeningState = .refused .portBusy ∧
    exec (.read 1 36 3) (idleWith 8 [] [] []) = .refused .replyBufferTooSmall := ⟨rfl, rfl, rfl, rfl⟩

/-! ## The register convenience layer -/

/-- V69: the counts of the width table. -/
theorem test_width_counts : width1Addresses.length = 22 ∧ width2Addresses.length = 13 ∧
    (∀ a ∈ width1Addresses, a ∉ width2Addresses) := by decide

/-- V70, V73, V74. -/
theorem test_putValue : putValue 1 30 512 = .ok (.write 1 30 [0, 2]) ∧ putValue 1 24 257 = .ok (.write 1 24 [1]) ∧
    putValue 1 37 0 = .error .widthUnsupported ∧ getValueCall 0xFE 36 = .error .broadcastHasNoValue := by decide

/-- R193: `getValue` brings its own local buffer, so the size of RXBUF is no matter. -/
theorem test_getValue_local :
    (match hostGetValue 1 36 { idleWith 8 [false] [0xFF, 0xFF, 1, 4, 0, 0x10, 0, 0xEA] [] with rxbuf := [] } with
      | .next t => getValueReturn 36 t
      | _ => .noValue .success) = .value 16 := by decide

/-- V75, V78: the value of a Read that has returned. -/
theorem test_getValue :
    getValueReturn 36 (after (.read 1 36 2) (idleWith 8 [false] [0xFF, 0xFF, 1, 4, 0, 0x10, 0, 0xEA] [])) = .value 16 ∧
    getValueReturn 36 (after (.read 1 36 2) (idleWith 8 [false] [0xFF, 0xFF, 1, 4, 0, 0xFF, 0xFF, 0xFC] [])) =
      .value 65535 := by decide

/-! ## Witnesses: cases that meet an obligation's hypotheses together -/

/-- The reply X2. -/
def replyX2 : List Byte := [0xFF, 0xFF, 1, 4, 0, 0x10, 0, 0xEA]

/-- A Read whose transport and reply are in place. -/
def readyRead : State := idleWith 8 [false] replyX2 []

/-- The idle block with a legal call presented. -/
def presenting : State := { readyRead with presented := true }

theorem witness_DecodeEncode : Config.params.legal = true ∧ (Instr.write 1 0 (List.replicate 252 0)).wellFormed = true ∧
    (Instr.read 254 36 253).wellFormed = true ∧ (Instr.status 1 2 0 [] 0xFC).wellFormed = true := by decide +kernel

theorem witness_EncodeDecode : decode Config.params .cmd [0xFF, 0xFF, 0xFE, 3, 4, 0xFF] = .ok (.regWrite 0xFE 0xFF [], []) ∧
    decode Config.params .sts [0xFF, 0xFF, 1, 0, 7, 9] = .ok (.status 1 0 7 [] 9, []) := by decide

theorem witness_CommandRowsDisjoint : ∃ r ∈ tableRows, r.format = .cmd ∧ r.selects 0xFFFF010201 = true := by decide

theorem witness_EncodedHeaderSelectsItsRow : (Instr.ping 1).wellFormed = true := by decide

theorem witness_PacketLayout : operationOf (.write 0 0 (List.replicate 252 0xFF)) = some .write ∧
    (Instr.write 0 0 (List.replicate 252 0xFF)).wellFormed = true := by decide +kernel

theorem markerAt_replyX2 : markerAt 20 (pollsOf replyX2) 0 := ⟨by decide, by intro j h; omega, by decide⟩

/-- The first and the last place of a flipped bit. -/
theorem witness_BitFlipFailsChecksum : markerAt 20 (pollsOf replyX2) 0 ∧
    (parseStatus 20 1 2 (pollsOf replyX2)).result = .success ∧ 0 ≤ 2 + 1 ∧ 3 ≤ 2 + 1 ∧ 7 < 8 :=
  ⟨markerAt_replyX2, by decide, by decide, by decide, by decide⟩

theorem witness_CommandParsesAsStatus : Config.params.legal = true ∧ operationOf (.write 1 30 [0, 2]) = some .write ∧
    (Instr.write 1 30 [0, 2]).wellFormed = true ∧
    ∀ k, k < (packetOf Config.params (.write 1 30 [0, 2])).length →
      (packetOf Config.params (.write 1 30 [0, 2]))[k]? = some (pollsOf (packetOf Config.params (.write 1 30 [0, 2])) k) := by decide

/-- The parameters of the test states are legal, and so are others: codes in another order, a scan of one poll. -/
theorem witness_params : readyRead.cfg.legal = true ∧ (idleWith 0 [] [] []).cfg.legal = true ∧
    ({ scanBound := 1, ping := 9, read := 8, write := 7, regWrite := 0, action := 5, reset := 0xFF } : Params).legal =
      true := by decide

/-- A call with a reply and one without: the hypotheses of CallAsFunction, of the five failure statements and of
SuccessExactly. -/
theorem witness_CallAsFunction :
    (admissible (.read 1 36 2) readyRead = true ∧ bufferInPlace (.read 1 36 2) readyRead = true ∧
      transportServes (.read 1 36 2) readyRead = true) ∧
    (admissible (.write 0xFE 25 [1]) (idleWith 8 [] [] [1]) = true ∧
      bufferInPlace (.write 0xFE 25 [1]) (idleWith 8 [] [] [1]) = true ∧
      transportServes (.write 0xFE 25 [1]) (idleWith 8 [] [] [1]) = true) := by decide

theorem witness_PingRuns : admissible (.ping 1) (idleWith 6 [false] [] []) = true ∧
    transportServes (.ping 1) (idleWith 6 [false] [] []) = true := by decide

/-- Both branches: id 1 and the broadcast id. -/
theorem witness_ReadRuns : admissible (.read 1 36 2) readyRead = true ∧
    transportServes (.read 1 36 2) readyRead = true ∧
    admissible (.read Config.broadcastId 36 2) readyRead = true ∧
    transportServes (.read Config.broadcastId 36 2) readyRead = true := by decide

theorem witness_WriteRuns : admissible (.write 1 30 [0, 2]) (idleWith 9 [false] [] [0, 2]) = true ∧
    (idleWith 9 [false] [] [0, 2]).txbuf = [0, 2] ∧
    transportServes (.write 1 30 [0, 2]) (idleWith 9 [false] [] [0, 2]) = true ∧
    admissible (.write Config.broadcastId 30 []) (idleWith 9 [] [] []) = true ∧
    transportServes (.write Config.broadcastId 30 []) (idleWith 9 [] [] []) = true := by decide

theorem witness_RegisterWriteRuns : admissible (.regWrite 1 30 [0, 2]) (idleWith 9 [false] [] [0, 2]) = true ∧
    (idleWith 9 [false] [] [0, 2]).txbuf = [0, 2] ∧
    transportServes (.regWrite 1 30 [0, 2]) (idleWith 9 [false] [] [0, 2]) = true ∧
    admissible (.regWrite Config.broadcastId 30 []) (idleWith 9 [] [] []) = true ∧
    transportServes (.regWrite Config.broadcastId 30 []) (idleWith 9 [] [] []) = true := by decide

theorem witness_ActionRuns : admissible (.action 1) (idleWith 6 [] [] []) = true ∧
    transportServes (.action 1) (idleWith 6 [] [] []) = true := by decide

theorem witness_ResetRuns : admissible (.reset 1) (idleWith 6 [false] [] []) = true ∧
    transportServes (.reset 1) (idleWith 6 [false] [] []) = true ∧
    admissible (.reset Config.broadcastId) (idleWith 6 [] [] []) = true ∧
    transportServes (.reset Config.broadcastId) (idleWith 6 [] [] []) = true := by decide

/-- The block in the marker scan, and in the drain wait. -/
theorem witness_StatusIsParsed : listeningState.cfg.legal = true ∧ listening listeningState = true ∧
    listeningState.expLen ≤ listeningState.rxbuf.length ∧
    { listeningState with phase := .rDrain }.phase = .rDrain ∧
    drained { listeningState with phase := .rDrain, busyAnswers := [false] } = true := by decide

/-- The id of the addressed device, and any id for a broadcast Ping. -/
theorem witness_GoodStatusAccepted : listening listeningState = true ∧
    listeningState.expLen ≤ listeningState.rxbuf.length ∧ [(0x10 : Byte), 0].length = listeningState.expLen ∧
    (4 : Byte).toNat = listeningState.expLen + Config.lenOverhead ∧
    ((1 : Byte) = listeningState.lId ∨ listeningState.lId = Config.broadcastId) ∧
    (0xEA : Byte) = checksum [1, 4, 0, 0x10, 0] ∧
    ((7 : Byte) = { listeningState with lId := Config.broadcastId }.lId ∨
      { listeningState with lId := Config.broadcastId }.lId = Config.broadcastId) := by decide

theorem witness_StatusUnreadWhenIdle : readyRead.phase = .idle := rfl

theorem controlInv_listening : ControlInv listeningState :=
  ⟨by decide, by decide, by decide, fun _ => ⟨by decide, by decide, fun _ => ⟨by decide, by decide⟩⟩,
    by decide, by decide, by decide⟩

theorem witness_StatusFrame : ControlInv listeningState ∧
    ∃ t, exec (.status 1 4 0 [0x10, 0] 0xEA) listeningState = .next t :=
  ⟨controlInv_listening, _, rfl⟩

/-- Each of the six results is reached under the hypotheses of its statement, the scan at its bound included. -/
theorem witness_results :
    (after (.read 1 36 2) { readyRead with rxAnswers := List.replicate 20 0 ++ replyX2 }).result = .frameNotFound ∧
    (after (.read 1 36 2) { readyRead with rxAnswers := [0, 0xFF, 0] }).result = .frameMalformed ∧
    (after (.read 1 36 2) { readyRead with rxAnswers := [0xFF, 0xFF, 2] }).result = .idMismatch ∧
    (after (.read 1 36 2) { readyRead with rxAnswers := [0xFF, 0xFF, 1, 2] }).result = .lengthMismatch ∧
    (after (.read 1 36 2) { readyRead with rxAnswers := replyX2.set 7 0xEB }).result = .checksumMismatch ∧
    (after (.read 1 36 2) { readyRead with rxAnswers := List.replicate 19 0 ++ replyX2 }).result = .success := by
  decide

theorem witness_VerdictRestsOnPolledBytes : (parseStatus 20 1 0 (pollsOf [0xFF, 0xFF, 2])).polls = 3 ∧
    ∀ k, k < 3 → pollsOf [0xFF, 0xFF, 2, 2, 0, 0xFB] k = pollsOf [0xFF, 0xFF, 2] k := by decide

/-- V37 and V38: the reply X2 without its last parameter, then 00 or DA. -/
theorem witness_LostByteFalseAcceptance (x : Byte) : 1 ≤ 20 ∧ [(0x10 : Byte)].length + 1 + ([] : List Byte).length ≤ Config.maxParam ∧
    ∀ k b, (header 1 (lengthByte 2) 0 ++ ([0x10] ++ []) ++
      [checksum (1 :: lengthByte 2 :: 0 :: ([0x10] ++ 0 :: [])), x])[k]? = some b →
      pollsOf [0xFF, 0xFF, 1, 4, 0, 0x10, 0xEA, x] k = b :=
  ⟨by decide, by decide, fun k b h => by
    have e : (header 1 (lengthByte 2) 0 ++ ([0x10] ++ []) ++
      [checksum (1 :: lengthByte 2 :: 0 :: ([0x10] ++ 0 :: [])), x]) = [0xFF, 0xFF, 1, 4, 0, 0x10, 0xEA, x] := rfl
    rw [e] at h
    rw [pollsOf, List.getD, h]
    rfl⟩

/-- The marker at the first poll and at the last the scan makes. -/
theorem witness_ExitStates : operationOf (.read 1 36 2) = some .read ∧ readsReply (.read 1 36 2) = true ∧
    markerAt 20 readyRead.pollAt 0 ∧
    markerAt 20 { readyRead with rxAnswers := List.replicate 19 0 ++ replyX2 }.pollAt 19 :=
  ⟨by decide, by decide, ⟨by decide, by intro j h; omega, by decide⟩, ⟨by decide, by decide, by decide⟩⟩

theorem witness_FrameNotFoundExit :
    admissible (.read 1 36 2) { readyRead with rxAnswers := List.replicate 20 0 } = true ∧
    transportServes (.read 1 36 2) { readyRead with rxAnswers := List.replicate 20 0 } = true ∧
    ∀ k, k < 20 → { readyRead with rxAnswers := List.replicate 20 0 }.pollAt k ≠ Config.marker := by
  decide

/-- One for each call. -/
theorem witness_CallFrame :
    (∃ t, exec (.ping 1) readyRead = .next t) ∧ (∃ t, exec (.read 1 36 2) readyRead = .next t) ∧
    (∃ t, exec (.write 1 36 []) readyRead = .next t) ∧ (∃ t, exec (.regWrite 1 36 []) readyRead = .next t) ∧
    (∃ t, exec (.action 1) readyRead = .next t) ∧ (∃ t, exec (.reset 1) readyRead = .next t) :=
  ⟨⟨_, rfl⟩, ⟨_, rfl⟩, ⟨_, rfl⟩, ⟨_, rfl⟩, ⟨_, rfl⟩, ⟨_, rfl⟩⟩

theorem witness_NoReplyFrame : readsReply (.action 1) = false ∧ readsReply (.read 0xFE 36 2) = false ∧
    (∃ t, exec (.action 1) readyRead = .next t) ∧ ∃ t, exec (.read 0xFE 36 2) readyRead = .next t :=
  ⟨by decide, by decide, ⟨_, rfl⟩, ⟨_, rfl⟩⟩

/-- A step that runs a call, one that goes on, and a reset: the hypothesis of HostStateNeverWritten and
DevErrOnlyOnSuccess. -/
theorem witness_steps : (∃ t, step presenting = .next t) ∧ (∃ t, step listeningState = .next t) ∧
    ∃ t, step { listeningState with resetReq := true } = .next t := ⟨⟨_, rfl⟩, ⟨_, rfl⟩, ⟨_, rfl⟩⟩

theorem witness_AdmissionExactly : (Instr.ping 1).format = .cmd := rfl

theorem witness_BusyPortRefuses : (Instr.ping 1).format = .cmd ∧ listeningState.phase ≠ .idle := by decide

theorem witness_StepRunsFetchedCall : presenting.resetReq = false ∧ presenting.presented = true ∧
    presenting.fetch = .ok (.read 1 36 2) ∧ readyRead.resetReq = false ∧ readyRead.presented = false := by decide

theorem witness_FetchedCallIsTheRecord : presenting.fetch = .ok (.read 1 36 2) ∧
    { presenting with callOp := 3, txbuf := [7] }.fetch = .ok (.write 1 36 [7]) ∧
    { presenting with callOp := 4, txbuf := [7] }.fetch = .ok (.regWrite 1 36 [7]) ∧
    { presenting with callOp := 5 }.fetch = .ok (.action 1) := by decide

theorem witness_PlacedCallRuns : (Instr.reset 254).format = .cmd ∧ (Instr.reset 254).wellFormed = true := by decide

/-- One record for each clause, at the bounds: the bytes beside the six codes, the id 255, lengths 254 and 255, 253 bytes, a busy
port. -/
theorem witness_IllegalRecordRefused :
    presenting.cfg.legal = true ∧ presenting.resetReq = false ∧ presenting.presented = true ∧
    (∀ op : Op, Config.params.code op ≠ 0 ∧ Config.params.code op ≠ 7) ∧
    presenting.callOp = presenting.cfg.code .read ∧ (255 : Byte) = 255 ∧ presenting.devId ≠ 255 ∧
    253 < (254 : Byte).toNat ∧ 253 < (255 : Byte).toNat ∧ (4 : Byte) = presenting.cfg.code .regWrite ∧
    252 < (List.replicate 253 (0 : Byte)).length ∧
    presenting.fetch = .ok (.read 1 36 2) ∧ { presenting with phase := .rDrain }.phase ≠ .idle :=
  ⟨by decide, rfl, rfl, fun op => by cases op <;> decide, by decide, rfl, by decide, by decide, by decide, by decide,
    by decide +kernel, by decide, by decide⟩

/-- Sends, the drain query, the switches and the polls move: the hypothesis of OneOperationPerPhase and PhaseTransitions in
every phase but the two that perform no operation. -/
theorem witness_ticks :
    ∀ p ∈ [Phase.wDir, .wMark0, .wMark1, .wId, .wLen, .wInstr, .wParam 0, .wParam 1, .wChk, .rDrain, .rDir,
      .rScan, .rMark2, .rId, .rLen, .rErr, .rParam 0, .rParam 1, .rChk], ∃ t, tick { readyRead with phase := p } = .moves t := by
  intro p hp
  simp only [List.mem_cons, List.not_mem_nil, or_false] at hp
  rcases hp with rfl | rfl | rfl | rfl | rfl | rfl | rfl | rfl | rfl | rfl | rfl | rfl | rfl | rfl | rfl | rfl | rfl |
    rfl | rfl <;>
    exact ⟨_, rfl⟩

/-- The first and the last of the sending phases. -/
theorem witness_SendWaits :
    { readyRead with phase := .wMark0, sendAnswers := [false, true] }.resetReq = false ∧
    { readyRead with phase := .wMark0, sendAnswers := [false, true] }.presented = false ∧
    { readyRead with phase := .wMark0, sendAnswers := [false, true] }.sendAnswers = false :: [true] ∧
    Phase.wMark0.writes = true ∧ Phase.wMark0 ≠ .wDir ∧ Phase.wChk.writes = true ∧ Phase.wChk ≠ .wDir := by decide

/-- A Read that waits to send its second parameter, and a Reset to all that waits to send its checksum. -/
theorem witness_ResumeFrame :
    ControlInv { listeningState with phase := .wParam 1, pidx := 1, dir := .transmit } ∧
    (∃ t, step { listeningState with phase := .wParam 1, pidx := 1, dir := .transmit } = .next t) ∧
    ControlInv { listeningState with phase := .wChk, lOp := .reset, lId := 0xFE, dir := .transmit } ∧
    (∃ t, step { listeningState with phase := .wChk, lOp := .reset, lId := 0xFE, dir := .transmit } = .next t) ∧
    replyExpected .reset 0xFE = false :=
  ⟨⟨by decide, by decide, by decide, fun _ => ⟨by decide, by decide, fun _ => ⟨by decide, by decide⟩⟩,
    by decide, by decide, by decide⟩, ⟨_, rfl⟩,
   ⟨by decide, by decide, by decide, fun _ => ⟨by decide, by decide, fun h => absurd h (by decide)⟩, rfl⟩,
   ⟨_, rfl⟩, by decide⟩

theorem witness_DrainWait : { readyRead with phase := .rDrain }.resetReq = false ∧
    { readyRead with phase := .rDrain }.presented = false ∧
    { readyRead with phase := .rDrain, busyAnswers := [true] }.busyAnswers = true :: [] ∧
    { readyRead with phase := .rDrain }.busyAnswers = false :: [] ∧
    { readyRead with phase := .rDrain }.expLen ≤ { readyRead with phase := .rDrain }.rxbuf.length := by decide

theorem witness_HangsOnlyWaiting : ControlInv listeningState ∧ ∃ t, step listeningState = .next t :=
  ⟨controlInv_listening, _, rfl⟩

theorem witness_PollsAreBounded :
    ControlInv { listeningState with phase := .rDir, dir := .transmit } ∧
    listeningState.resetReq = false ∧ listeningState.presented = false :=
  ⟨⟨by decide, by decide, by decide, fun _ => ⟨by decide, by decide, fun _ => ⟨by decide, by decide⟩⟩, by decide, by decide⟩,
    rfl, rfl⟩

/-- Two idle states that differ in every register of the block a call could have left. -/
theorem witness_HistoryIrrelevant :
    (∃ t, exec (.read 1 36 2) readyRead = .next t) ∧
    ∃ t, exec (.read 1 36 2) { readyRead with
      acc := 0, errStage := 1, scanCnt := 20, pidx := 253, lOp := .write, lId := 3, lExpLen := 9, dir := .transmit
      result := .success, trace := [.busy true] } = .next t := ⟨⟨_, rfl⟩, ⟨_, rfl⟩⟩

/-- The three invariants hold in the middle of a call, and the step goes on. -/
theorem witness_invariants_kept : TraceInv listeningState ∧ SumInv listeningState ∧ ControlInv listeningState ∧
    ∃ t, step listeningState = .next t :=
  ⟨⟨[.dir .transmit, .busy false], [], ⟨[.dir .transmit], ⟨[], 0, rfl⟩, rfl⟩, rfl⟩, rfl, controlInv_listening, _, rfl⟩

theorem witness_HardReset : { listeningState with resetReq := true }.resetReq = true := rfl

theorem witness_ResetAcceptsCalls : (Instr.read 1 36 253).format = .cmd ∧
    (Instr.read 1 36 253).wellFormed = true := by decide

/-- Addresses of every width, and the first and last past the table. -/
theorem witness_widths : widthOf 1 = 0 ∧ widthOf 25 = 1 ∧ widthOf 36 = 2 ∧ Config.addressMax < (50 : Byte).toNat ∧
    Config.addressMax < (255 : Byte).toNat := by decide

theorem witness_GetValueDecodes : widthOf 36 ≠ 0 ∧ (1 : Byte) ≠ Config.broadcastId ∧ readyRead.result ≠ .success ∧
    readyRead.phase = .idle ∧ idLegal 1 = true ∧
    { readyRead with result := .success }.result = .success ∧
    { readyRead with result := .success }.rxbuf = 0xAA :: 0xAA :: [] := by decide

theorem witness_LittleEndianRoundTrip : 0 ≤ 2 ∧ 1 ≤ 2 ∧ 2 ≤ 2 := by decide

end Sys2Proof.Tests
end

section
/-!
SUPPORT. One tick, phase by phase: what sends keep, and what no tick writes (`State.fixed`).
-/
namespace Sys2Proof.Machine

@[simp] theorem Progress.state_moves (t : State) : (Progress.moves t).state = t := rfl
@[simp] theorem Progress.state_rests (t : State) : (Progress.rests t).state = t := rfl

/-- What holds after the wait and after the send holds after `SendByte` (R54). -/
theorem sendByte_keeps {P : State → Prop} {b : Byte} {k : State → State} {s : State} (hwait : P s.sendAsked)
    (hsent : P (k (s.sendAsked.log (.tx b)))) : P (sendByte b k s).state := by
  rw [sendByte_state]
  split
  · exact hsent
  · exact hwait

/-- What holds after the wait and after the send holds after `Emit` (R111). -/
theorem emit_keeps {P : State → Prop} {b : Byte} {k : State → State} {s : State} (hwait : P s.sendAsked)
    (hsent : P (k ((s.sendAsked.log (.tx b)).addAcc b))) : P (emit b k s).state :=
  sendByte_keeps hwait hsent

/-! ## What no tick writes -/

/-- The parameters, what only the host writes, the request inputs, the latches of the call and the mark on TXBUF: the fields no
tick writes (R26, R31, R33, R34, R38). -/
def State.fixed (s : State) :=
  ((s.cfg, s.devId, s.callOp, s.callAddr, s.callLen, s.txbuf, s.presented, s.resetReq),
    (s.lOp, s.lId, s.lAddr, s.lLen, s.lN, s.lExpLen, s.lTx, s.txTouched))

/-- `State.fixed` in the terms of the statements. -/
theorem State.fixed_eq_iff {s t : State} :
    t.fixed = s.fixed ↔ HostUntouched s t ∧ t.presented = s.presented ∧ t.resetReq = s.resetReq ∧ LatchesKept s t ∧
      t.txTouched = s.txTouched := by
  simp only [State.fixed, Prod.mk.injEq, HostUntouched, LatchesKept]
  tauto

section
variable (s : State)

@[simp] theorem State.goto_fixed (p : Phase) : (s.goto p).fixed = s.fixed := rfl
@[simp] theorem State.log_fixed (e : Event) : (s.log e).fixed = s.fixed := rfl
@[simp] theorem State.setAcc_fixed (v : Byte) : (s.setAcc v).fixed = s.fixed := rfl
@[simp] theorem State.addAcc_fixed (b : Byte) : (s.addAcc b).fixed = s.fixed := rfl
@[simp] theorem State.setPidx_fixed (i : Nat) : (s.setPidx i).fixed = s.fixed := rfl
@[simp] theorem State.setScanCnt_fixed (n : Nat) : (s.setScanCnt n).fixed = s.fixed := rfl
@[simp] theorem State.setErrStage_fixed (b : Byte) : (s.setErrStage b).fixed = s.fixed := rfl
@[simp] theorem State.putReply_fixed (i : Nat) (b : Byte) : (s.putReply i b).fixed = s.fixed := rfl
@[simp] theorem State.paramDrawn_fixed (i : Nat) : (s.paramDrawn i).fixed = s.fixed := rfl
@[simp] theorem State.setDir_fixed (d : Dir) : (s.setDir d).fixed = s.fixed := rfl
@[simp] theorem State.sendAsked_fixed : s.sendAsked.fixed = s.fixed := rfl
@[simp] theorem State.busyAsked_fixed : s.busyAsked.fixed = s.fixed := rfl
@[simp] theorem State.polled_fixed : s.polled.fixed = s.fixed := rfl
@[simp] theorem State.taken_fixed : s.taken.fixed = s.fixed := rfl
@[simp] theorem State.fail_fixed (e : Result) : (s.fail e).fixed = s.fixed := rfl
@[simp] theorem State.succeed_fixed : s.succeed.fixed = s.fixed := rfl
@[simp] theorem State.accept_fixed : s.accept.fixed = s.fixed := rfl
@[simp] theorem State.deliver_fixed : s.deliver.fixed = s.fixed := rfl

@[simp] theorem State.afterInstr_fixed : s.afterInstr.fixed = s.fixed := by unfold State.afterInstr; split <;> simp
@[simp] theorem State.afterParam_fixed (i : Nat) : (s.afterParam i).fixed = s.fixed := rfl
@[simp] theorem State.afterChk_fixed : s.afterChk.fixed = s.fixed := by unfold State.afterChk; split <;> simp
@[simp] theorem State.scan_fixed : s.scan.fixed = s.fixed := by
  unfold State.scan
  split
  · simp
  · split <;> simp
@[simp] theorem State.mark2_fixed : s.mark2.fixed = s.fixed := by unfold State.mark2; split <;> simp
@[simp] theorem State.checkId_fixed : s.checkId.fixed = s.fixed := by unfold State.checkId; split <;> simp
@[simp] theorem State.checkLen_fixed : s.checkLen.fixed = s.fixed := by unfold State.checkLen; split <;> simp
@[simp] theorem State.stageErr_fixed : s.stageErr.fixed = s.fixed := by simp [State.stageErr]
@[simp] theorem State.takeParam_fixed (i : Nat) : (s.takeParam i).fixed = s.fixed := by simp [State.takeParam]
@[simp] theorem State.checkSum_fixed : s.checkSum.fixed = s.fixed := by unfold State.checkSum; split <;> simp
end

/-- No tick writes a fixed field. -/
theorem tick_fixed (s : State) : (tick s).state.fixed = s.fixed := by
  have send {b : Byte} {k : State → State} (hk : ∀ t : State, (k t).fixed = t.fixed) :
      (sendByte b k s).state.fixed = s.fixed :=
    sendByte_keeps (P := fun t => t.fixed = s.fixed) (by simp) (by simp [hk])
  cases hp : s.phase <;> simp only [tick, hp, emit, Progress.state_moves, Progress.state_rests]
  case wMark0 | wMark1 | wId | wLen | wInstr | wParam | wChk => exact send fun t => by simp
  case rDrain => split <;> simp
  all_goals simp

end Sys2Proof.Machine
end

section
/-!
SUPPORT. ACC against the trace (spec/10_state.md R21, R22): a packet's bytes are summed as they are sent or polled.
-/
namespace Sys2Proof.Machine

/-! ## Bytes on a trace -/

@[simp] theorem sentBytes_append (t u : List Event) : sentBytes (t ++ u) = sentBytes t ++ sentBytes u :=
  List.filterMap_append
@[simp] theorem sentBytes_nil : sentBytes [] = [] := rfl
@[simp] theorem sentBytes_tx (b : Byte) : sentBytes [.tx b] = [b] := rfl
@[simp] theorem sentBytes_dir (d : Dir) : sentBytes [.dir d] = [] := rfl
@[simp] theorem polledBytes_append (t u : List Event) : polledBytes (t ++ u) = polledBytes t ++ polledBytes u :=
  List.filterMap_append
@[simp] theorem polledBytes_nil : polledBytes [] = [] := rfl
@[simp] theorem polledBytes_rx (b : Byte) : polledBytes [.rx b] = [b] := rfl
@[simp] theorem polledBytes_tx (b : Byte) : polledBytes [.tx b] = [] := rfl
@[simp] theorem polledBytes_dir (d : Dir) : polledBytes [.dir d] = [] := rfl
@[simp] theorem polledBytes_busy (v : Bool) : polledBytes [.busy v] = [] := rfl

theorem sum8_append (a b : List Byte) : sum8 (a ++ b) = sum8 a + sum8 b := by
  induction a with
  | nil => simp [sum8]
  | cons x xs ih => simp [sum8, ih, BitVec.add_assoc]

/-- One byte more behind the first `k` is one byte more in the sum (R21). -/
theorem sum8_drop_snoc {k : Nat} {l : List Byte} (h : k ≤ l.length) (b : Byte) :
    sum8 ((l ++ [b]).drop k) = sum8 (l.drop k) + b := by
  rw [List.drop_append_of_le_length h, sum8_append]
  simp [sum8]

/-! ## The sum in the writer and in the parser -/

/-- The invariant rests on the phase, the trace, ACC and SCAN_CNT alone. -/
theorem sumInv_congr {s t : State} (hp : t.phase = s.phase) (ht : t.trace = s.trace) (ha : t.acc = s.acc)
    (hc : t.scanCnt = s.scanCnt) (h : SumInv s) : SumInv t := by
  simpa only [SumInv, hp, ht, ha, hc] using h

/-- Between calls nothing is claimed of ACC. -/
theorem sumInv_of_idle {s : State} (h : s.phase = .idle) : SumInv s := by simp only [SumInv, h]

theorem sumInv_of_done {s : State} (h : s.phase = .done) : SumInv s := by simp only [SumInv, h]

/-- `SumInv` from `W_LEN` to `W_CHK`: ACC is the sum of the bytes sent behind the two markers. -/
def SumOfSent (s : State) : Prop :=
  (sentBytes s.trace).take 2 = [Config.marker, Config.marker] ∧ 2 < (sentBytes s.trace).length ∧
    s.acc = sum8 ((sentBytes s.trace).drop 2) ∧ polledBytes s.trace = []

/-- `SumInv` from `R_LEN` to `R_CHK`: ACC is the sum of the bytes polled behind the two markers. -/
def SumOfPolled (s : State) : Prop :=
  s.scanCnt + 1 < (polledBytes s.trace).length ∧ s.acc = sum8 ((polledBytes s.trace).drop (s.scanCnt + 1))

/-- `Emit` adds the byte it sends (R111). -/
theorem SumOfSent.emit {s : State} (h : SumOfSent s) (b : Byte) : SumOfSent ((s.sendAsked.log (.tx b)).addAcc b) := by
  obtain ⟨hmark, hlen, hacc, hpoll⟩ := h
  refine ⟨?_, ?_, ?_, by simp [hpoll]⟩
  · simp [List.take_append_of_le_length (Nat.le_of_lt hlen), hmark]
  · simp; omega
  · simp [sum8_drop_snoc (Nat.le_of_lt hlen), hacc]

/-- `Take` adds the byte it polls (R131). -/
theorem SumOfPolled.taken {s : State} (h : SumOfPolled s) : SumOfPolled s.taken := by
  obtain ⟨hlen, hacc⟩ := h
  refine ⟨by simp; omega, ?_⟩
  simp [sum8_drop_snoc (Nat.le_of_lt hlen), hacc]

theorem SumOfSent.afterInstr {s : State} (h : SumOfSent s) : SumInv s.afterInstr := by
  unfold State.afterInstr; split <;> exact h

theorem SumOfSent.paramDrawn {s : State} (h : SumOfSent s) (i : Nat) : SumOfSent (s.paramDrawn i) := h

theorem SumOfSent.afterParam {s : State} (h : SumOfSent s) (i : Nat) : SumInv (s.afterParam i) := by
  unfold State.afterParam; split <;> exact h

/-- Behind the checksum byte the packet is closed: nothing has been polled of the next one. -/
theorem sumInv_afterChk {s : State} (h : polledBytes s.trace = []) : SumInv s.afterChk := by
  unfold State.afterChk
  split
  · exact h
  · exact sumInv_of_done rfl

theorem sumInv_scan {s : State} (h : (polledBytes s.trace).length = s.scanCnt) : SumInv s.scan := by
  have hlen : (polledBytes s.polled.trace).length = s.scanCnt + 1 := by simp [h]
  unfold State.scan
  split
  · exact hlen
  · split
    · exact hlen
    · exact sumInv_of_done rfl

theorem sumInv_mark2 {s : State} (h : (polledBytes s.trace).length = s.scanCnt) : SumInv s.mark2 := by
  unfold State.mark2
  split
  · exact ⟨by simp [h], rfl⟩
  · exact sumInv_of_done rfl

/-- The id opens the sum, whatever the check on it says (R131, R136). -/
theorem sumInv_checkId {s : State} (hlen : (polledBytes s.trace).length = s.scanCnt + 1) (hacc : s.acc = 0) :
    SumInv s.checkId := by
  have hsum : SumOfPolled s.taken := by
    refine ⟨by simp [hlen], ?_⟩
    simp [← hlen, sum8, hacc]
  unfold State.checkId
  split
  · exact sumInv_of_done rfl
  · exact hsum

theorem SumOfPolled.checkLen {s : State} (h : SumOfPolled s) : SumInv s.checkLen := by
  unfold State.checkLen
  split
  · exact sumInv_of_done rfl
  · exact h.taken

theorem SumOfPolled.stageErr {s : State} (h : SumOfPolled s) : SumInv s.stageErr := by
  unfold State.stageErr; split <;> exact h.taken

theorem SumOfPolled.takeParam {s : State} (h : SumOfPolled s) (i : Nat) : SumInv (s.takeParam i) := by
  unfold State.takeParam; split <;> exact h.taken

theorem sumInv_checkSum (s : State) : SumInv s.checkSum := by
  unfold State.checkSum; split <;> exact sumInv_of_done rfl

/-! ## Every step -/

/-- A tick keeps ACC the sum of the current packet's bytes. -/
theorem sumInv_tick (s : State) (h : SumInv s) : SumInv (tick s).state := by
  have hwait : SumInv s.sendAsked := sumInv_congr rfl rfl rfl rfl h
  cases hp : s.phase <;> simp only [SumInv, hp] at h <;> simp only [tick, hp]
  case idle => exact sumInv_of_idle hp
  case wDir => exact ⟨by simp [State.setDir, h], by simp [State.setDir, h]⟩
  case wMark0 =>
    obtain ⟨hsent, hpoll⟩ := h
    exact sendByte_keeps hwait ⟨by simp [hsent], by simp [hpoll]⟩
  case wMark1 =>
    obtain ⟨hsent, hpoll⟩ := h
    exact sendByte_keeps hwait ⟨by simp [hsent], rfl, by simp [hpoll]⟩
  case wId =>
    obtain ⟨hsent, hacc, hpoll⟩ := h
    exact emit_keeps hwait ⟨by simp [hsent], by simp [hsent], by simp [hsent, hacc, sum8], by simp [hpoll]⟩
  case wLen => exact emit_keeps hwait (SumOfSent.emit h _)
  case wInstr => exact emit_keeps hwait (SumOfSent.emit h _).afterInstr
  case wParam i => exact emit_keeps hwait (((SumOfSent.emit h _).paramDrawn i).afterParam i)
  case wChk =>
    obtain ⟨-, -, -, hpoll⟩ := h
    exact sendByte_keeps hwait (sumInv_afterChk (by simp [hpoll]))
  case rDrain =>
    have hasked : polledBytes s.busyAsked.trace = [] := by simp [h]
    split
    · simpa only [SumInv, Progress.state_rests, State.busyAsked_phase, hp] using hasked
    · exact hasked
  case rDir => simp [SumInv, State.setDir, h]
  case rScan => exact sumInv_scan h
  case rMark2 => exact sumInv_mark2 h
  case rId => exact sumInv_checkId h.1 h.2
  case rLen => exact SumOfPolled.checkLen h
  case rErr => exact SumOfPolled.stageErr h
  case rParam i => exact SumOfPolled.takeParam h i
  case rChk => exact sumInv_checkSum s
  case done => exact sumInv_of_idle rfl

theorem sumInv_proceed {s : State} (h : SumInv s) : SumInv (proceed s) :=
  proceed_keeps (P := SumInv) (fun _ => sumInv_congr rfl rfl rfl rfl) sumInv_tick s h

/-- A call that is accepted starts an empty trace (log 24). -/
theorem sumInv_acceptedAs {i : Instr} {s : State} (h : SumInv s) : SumInv (s.acceptedAs i) := by
  cases i with
  | status => exact h
  | _ => exact (rfl : ([] : List Event) = [])

theorem sumInv_exec {i : Instr} {s t : State} (h : SumInv s) (he : exec i s = .next t) : SumInv t := by
  obtain ⟨-, rfl⟩ | ⟨id, len, err, params, chk, -, rfl⟩ := exec_cases he
  · exact sumInv_proceed (sumInv_acceptedAs h)
  · exact sumInv_proceed (sumInv_congr rfl rfl rfl rfl h)

/-- Settles O52: every tick keeps the sum (`sumInv_tick`), an accepted call starts with an empty trace, and the reset event
leaves the block idle, where nothing is claimed. -/
theorem sumInvKept : Obligations.SumInvKept := by
  intro s t h hstep
  obtain ⟨-, rfl⟩ | ⟨-, -, i, -, he⟩ | ⟨-, -, rfl⟩ := step_cases hstep
  · exact sumInv_of_idle rfl
  · exact sumInv_exec (s := s.takeRequest) (sumInv_congr rfl rfl rfl rfl h) he
  · exact sumInv_proceed h

end Sys2Proof.Machine
end

section
/-!
SUPPORT. What the block leaves alone as it goes on: RXBUF behind the expected reply (spec/10_state.md R35), the receive path while
it sends (spec/40_packet_writer.md R117), `dev.err` but at the acceptance of a reply (R32).
-/
namespace Sys2Proof.Machine

/-! ## Where the reader stands -/

/-- The phases of READSTATUS (R27, R130). -/
def Phase.reads : Phase → Bool
  | .rDrain | .rDir | .rScan | .rMark2 | .rId | .rLen | .rErr | .rParam _ | .rChk => true
  | _ => false

/-- A reply is read only by a call that expects one (R167), and `R_PARAM(i)` takes the byte `i` of it, within the expected length
(R25, R139). -/
def ReaderInv (s : State) : Prop :=
  (s.phase.reads = true → replyExpected s.lOp s.lId = true) ∧ ∀ i, s.phase = .rParam i → i < s.expLen ∧ s.pidx = i

theorem readerInv_of_not_reads {s : State} (h : s.phase.reads = false) : ReaderInv s :=
  ⟨fun h' => by simp [h] at h', fun i hi => by simp [hi, Phase.reads] at h⟩

/-- In a phase that takes no parameter the expected reply is all there is to say. -/
theorem readerInv_of_expected {s : State} (h : replyExpected s.lOp s.lId = true) (hp : ∀ i, s.phase ≠ .rParam i) :
    ReaderInv s := ⟨fun _ => h, fun i hi => absurd hi (hp i)⟩

theorem readerInv_afterInstr (s : State) : ReaderInv s.afterInstr := by
  unfold State.afterInstr; split <;> exact readerInv_of_not_reads rfl

theorem readerInv_afterParam (i : Nat) (s : State) : ReaderInv (s.afterParam i) := by
  unfold State.afterParam; split <;> exact readerInv_of_not_reads rfl

theorem readerInv_afterChk (s : State) : ReaderInv s.afterChk := by
  unfold State.afterChk
  split
  · rename_i h; exact readerInv_of_expected h (by simp)
  · exact readerInv_of_not_reads rfl

section
variable {s : State} (h : replyExpected s.lOp s.lId = true)
include h

theorem readerInv_scan : ReaderInv s.scan := by
  unfold State.scan
  split
  · exact readerInv_of_expected h (by simp)
  · split
    · exact readerInv_of_expected h (by simp)
    · exact readerInv_of_not_reads rfl

theorem readerInv_mark2 : ReaderInv s.mark2 := by
  unfold State.mark2
  split
  · exact readerInv_of_expected h (by simp)
  · exact readerInv_of_not_reads rfl

theorem readerInv_checkId : ReaderInv s.checkId := by
  unfold State.checkId
  split
  · exact readerInv_of_not_reads rfl
  · exact readerInv_of_expected h (by simp)

theorem readerInv_checkLen : ReaderInv s.checkLen := by
  unfold State.checkLen
  split
  · exact readerInv_of_not_reads rfl
  · exact readerInv_of_expected h (by simp)

theorem readerInv_stageErr : ReaderInv s.stageErr := by
  unfold State.stageErr
  split
  · rename_i hn
    exact ⟨fun _ => h, fun i hi => by cases hi; exact ⟨hn, rfl⟩⟩
  · exact readerInv_of_expected h (by simp)

theorem readerInv_takeParam {i : Nat} (hi : s.pidx = i) : ReaderInv (s.takeParam i) := by
  unfold State.takeParam
  split
  · rename_i hn
    exact ⟨fun _ => h, fun j hj => by cases hj; exact ⟨hn, by simp [hi]⟩⟩
  · exact readerInv_of_expected h (by simp)

end

theorem readerInv_checkSum (s : State) : ReaderInv s.checkSum := by
  unfold State.checkSum; split <;> exact readerInv_of_not_reads rfl

theorem readerInv_tick (s : State) (h : ReaderInv s) : ReaderInv (tick s).state := by
  obtain ⟨hread, hpar⟩ := h
  cases hp : s.phase <;> simp only [tick, hp]
  case idle => exact readerInv_of_not_reads (by simp [hp, Phase.reads])
  case wDir | done => exact readerInv_of_not_reads rfl
  case wMark0 | wMark1 => exact sendByte_keeps ⟨hread, hpar⟩ (readerInv_of_not_reads rfl)
  case wId | wLen => exact emit_keeps ⟨hread, hpar⟩ (readerInv_of_not_reads rfl)
  case wInstr => exact emit_keeps ⟨hread, hpar⟩ (readerInv_afterInstr _)
  case wParam i => exact emit_keeps ⟨hread, hpar⟩ (readerInv_afterParam i _)
  case wChk => exact sendByte_keeps ⟨hread, hpar⟩ (readerInv_afterChk _)
  all_goals have hexp : replyExpected s.lOp s.lId = true := hread (by simp [hp, Phase.reads])
  case rDrain =>
    split
    · exact ⟨hread, hpar⟩
    · exact readerInv_of_expected hexp (by simp)
  case rDir => exact readerInv_of_expected hexp (by simp)
  case rScan => exact readerInv_scan hexp
  case rMark2 => exact readerInv_mark2 hexp
  case rId => exact readerInv_checkId hexp
  case rLen => exact readerInv_checkLen hexp
  case rErr => exact readerInv_stageErr hexp
  case rParam i => exact readerInv_takeParam hexp (hpar i hp).2
  case rChk => exact readerInv_checkSum s

/-! ## RXBUF -/

theorem ReplyTailUntouched.of_eq {n : Nat} {s t : State} (h : t.rxbuf = s.rxbuf) : ReplyTailUntouched n s t := by
  simp [ReplyTailUntouched, h]

theorem ReplyTailUntouched.trans {n : Nat} {s t u : State} (h1 : ReplyTailUntouched n s t)
    (h2 : ReplyTailUntouched n t u) : ReplyTailUntouched n s u :=
  ⟨h2.1.trans h1.1, fun k hk => (h2.2 k hk).trans (h1.2 k hk)⟩

@[simp] theorem freeBytes_length (d n : Nat) : (freeBytes d n).length = n := by simp [freeBytes]

/-- A failure leaves RXBUF behind the expected reply as it was (R35, log 9). -/
theorem replyTail_fail {s u : State} (hrx : u.rxbuf = s.rxbuf) (hlen : u.lExpLen = s.lExpLen) (e : Result) :
    ReplyTailUntouched s.expLen s (u.fail e) := by
  have hexp : u.expLen = s.expLen := by simp [State.expLen, hlen]
  refine ⟨by simp [hrx], fun k hk => ?_⟩
  simp only [State.fail_rxbuf, State.spoilReply_rxbuf, hrx, hexp]
  rw [List.getElem?_append_right (by simp; omega), List.getElem?_drop, freeBytes_length]
  congr 1
  omega

/-- A parameter is written within the expected reply (R139). -/
theorem replyTail_takeParam {s : State} {i : Nat} (h : i < s.expLen ∧ s.pidx = i) :
    ReplyTailUntouched s.expLen s (s.takeParam i) := by
  obtain ⟨hi, hpidx⟩ := h
  refine ⟨by simp [State.takeParam], fun k hk => ?_⟩
  simp only [State.takeParam, State.goto_rxbuf, State.setPidx_rxbuf, State.putReply_rxbuf, State.taken_rxbuf]
  exact List.getElem?_set_ne (by omega)

/-- Only the bytes of the expected reply are written by a tick. -/
theorem replyTail_tick (s : State) (h : ReaderInv s) : ReplyTailUntouched s.expLen s (tick s).state := by
  have same {t : State} (ht : t.rxbuf = s.rxbuf) : ReplyTailUntouched s.expLen s t := .of_eq ht
  cases hp : s.phase <;> simp only [tick, hp]
  case idle | wDir | rDir | rErr | done => exact same rfl
  case wMark0 | wMark1 => exact sendByte_keeps (same rfl) (same rfl)
  case wId | wLen | wParam => exact emit_keeps (same rfl) (same rfl)
  case wInstr => exact emit_keeps (same rfl) (same (by unfold State.afterInstr; split <;> rfl))
  case wChk => exact sendByte_keeps (same rfl) (same (by unfold State.afterChk; split <;> rfl))
  case rDrain => split <;> exact same rfl
  case rScan =>
    simp only [State.scan, Progress.state_moves]
    split
    · exact same rfl
    · split
      · exact same rfl
      · exact replyTail_fail rfl rfl _
  case rMark2 =>
    simp only [State.mark2, Progress.state_moves]
    split
    · exact same rfl
    · exact replyTail_fail rfl rfl _
  case rId =>
    simp only [State.checkId, Progress.state_moves]
    split
    · exact replyTail_fail rfl rfl _
    · exact same rfl
  case rLen =>
    simp only [State.checkLen, Progress.state_moves]
    split
    · exact replyTail_fail rfl rfl _
    · exact same rfl
  case rParam i => exact replyTail_takeParam (h.2 i hp)
  case rChk =>
    simp only [State.checkSum, Progress.state_moves]
    split
    · exact replyTail_fail rfl rfl _
    · exact same rfl

/-! ## The receive path -/

/-- What only READSTATUS writes (R117, R170). -/
def State.receivePath (s : State) := (s.rxbuf, s.devErr, s.errStage, s.scanCnt, s.rxAnswers, s.busyAnswers)

theorem State.receivePath_eq_iff {s t : State} :
    t.receivePath = s.receivePath ↔ t.rxbuf = s.rxbuf ∧ t.devErr = s.devErr ∧ t.errStage = s.errStage ∧
      t.scanCnt = s.scanCnt ∧ t.rxAnswers = s.rxAnswers ∧ t.busyAnswers = s.busyAnswers := by
  simp [State.receivePath]

/-- Outside READSTATUS a tick leaves the receive path alone. -/
theorem tick_receivePath {s : State} (h : s.phase.reads = false) : (tick s).state.receivePath = s.receivePath := by
  have send {b : Byte} {k : State → State} (hk : ∀ t : State, (k t).receivePath = t.receivePath) :
      (sendByte b k s).state.receivePath = s.receivePath :=
    sendByte_keeps (P := fun t => t.receivePath = s.receivePath) rfl (hk _)
  cases hp : s.phase <;> simp only [tick, hp, emit]
  case idle | wDir | done => rfl
  case wMark0 | wMark1 | wId | wLen | wParam => exact send fun _ => rfl
  case wInstr => exact send fun t => by unfold State.afterInstr; split <;> rfl
  case wChk => exact send fun t => by unfold State.afterChk; split <;> rfl
  all_goals simp [hp, Phase.reads] at h

/-- Only READSTATUS step 10 writes `dev.err` (R141). -/
theorem tick_devErr {s : State} (h : s.phase ≠ .rChk) : (tick s).state.devErr = s.devErr := by
  cases hr : s.phase.reads with
  | false => exact (State.receivePath_eq_iff.1 (tick_receivePath hr)).2.1
  | true =>
    cases hp : s.phase <;> simp only [tick, hp, Progress.state_moves]
    case rDrain => split <;> rfl
    case rDir | rErr | rParam => rfl
    case rScan =>
      unfold State.scan
      split
      · rfl
      · split <;> simp
    case rMark2 => unfold State.mark2; split <;> simp
    case rId => unfold State.checkId; split <;> simp
    case rLen => unfold State.checkLen; split <;> simp
    case rChk => exact absurd hp h
    all_goals simp [hp, Phase.reads] at hr

end Sys2Proof.Machine
end

section
/-!
SUPPORT. The control invariant (spec/10_state.md R24, R25, R26, R30): what the phase says of DIR and of the loops' indices
(`LineInv`), the counters' ranges, the latches.
-/
namespace Sys2Proof.Machine

/-! ## What equal fixed fields give -/

section
variable {s t : State} (h : t.fixed = s.fixed)
include h

theorem State.cfg_of_fixed : t.cfg = s.cfg := congrArg (·.1.1) h
theorem State.lOp_of_fixed : t.lOp = s.lOp := congrArg (·.2.1) h
theorem State.lId_of_fixed : t.lId = s.lId := congrArg (·.2.2.1) h
theorem State.lN_of_fixed : t.lN = s.lN := congrArg (·.2.2.2.2.2.1) h
theorem State.lExpLen_of_fixed : t.lExpLen = s.lExpLen := congrArg (·.2.2.2.2.2.2.1) h

theorem State.expLen_of_fixed : t.expLen = s.expLen := by
  simp only [State.expLen, State.lExpLen_of_fixed h]

theorem State.paramCount_of_fixed : t.paramCount = s.paramCount := by
  simp only [State.paramCount, State.lOp_of_fixed h, State.lN_of_fixed h]

/-- The latches stay legal while RXBUF keeps its length. -/
theorem latchesLegal_of_fixed (hrx : t.rxbuf.length = s.rxbuf.length) (hl : latchesLegal s) : latchesLegal t := by
  simpa only [latchesLegal, State.lOp_of_fixed h, State.lId_of_fixed h, State.expLen_of_fixed h,
    State.paramCount_of_fixed h, hrx] using hl

end

theorem Params.scanBound_pos {c : Params} (h : c.legal = true) : 0 < c.scanBound := by
  simp only [Params.legal, Bool.and_eq_true, decide_eq_true_eq] at h
  exact h.1

/-! ## DIR and the indices -/

/-- What the phase says of DIR, of PIDX in the writer's loop and of SCAN_CNT in the scan (R24, R25, R30). -/
def LineInv (s : State) : Prop :=
  match s.phase with
  | .idle | .wDir | .done => True
  | .wMark0 | .wMark1 | .wId | .wLen | .wInstr | .wChk | .rDrain | .rDir => s.dir = .transmit
  | .wParam i => s.dir = .transmit ∧ i < s.paramCount ∧ s.pidx = appendIndex s.lOp i
  | .rScan => s.dir = .receive ∧ s.scanCnt < s.cfg.scanBound
  | .rMark2 | .rId | .rLen | .rErr | .rParam _ | .rChk => s.dir = .receive

theorem phaseAgrees_iff (s : State) : phaseAgrees s ↔ ReaderInv s ∧ LineInv s := by
  cases hp : s.phase <;> simp [phaseAgrees, ReaderInv, LineInv, hp, Phase.reads] <;> tauto

theorem appendIndex_zero (op : Op) : appendIndex op 0 = 0 := by unfold appendIndex; split <;> rfl

theorem appendIndex_le (op : Op) (i : Nat) : appendIndex op i ≤ i := by unfold appendIndex; split <;> omega

theorem lineInv_of_done {s : State} (h : s.phase = .done) : LineInv s := by simp only [LineInv, h]

theorem lineInv_afterInstr {s : State} (h : s.dir = .transmit) : LineInv s.afterInstr := by
  unfold State.afterInstr
  split
  · rename_i hn; exact ⟨h, hn, (appendIndex_zero s.lOp).symm⟩
  · exact h

theorem lineInv_afterParam {s : State} (h : s.dir = .transmit) (i : Nat) : LineInv (s.afterParam i) := by
  unfold State.afterParam
  split
  · rename_i hn; exact ⟨h, hn, rfl⟩
  · exact h

theorem lineInv_afterChk {s : State} (h : s.dir = .transmit) : LineInv s.afterChk := by
  unfold State.afterChk
  split
  · exact h
  · exact lineInv_of_done rfl

section
variable {s : State} (h : s.dir = .receive)
include h

theorem lineInv_scan : LineInv s.scan := by
  unfold State.scan
  split
  · exact h
  · split
    · rename_i hn; exact ⟨h, hn⟩
    · exact lineInv_of_done rfl

theorem lineInv_mark2 : LineInv s.mark2 := by
  unfold State.mark2
  split
  · exact h
  · exact lineInv_of_done rfl

theorem lineInv_checkId : LineInv s.checkId := by
  unfold State.checkId
  split
  · exact lineInv_of_done rfl
  · exact h

theorem lineInv_checkLen : LineInv s.checkLen := by
  unfold State.checkLen
  split
  · exact lineInv_of_done rfl
  · exact h

theorem lineInv_stageErr : LineInv s.stageErr := by unfold State.stageErr; split <;> exact h

theorem lineInv_takeParam (i : Nat) : LineInv (s.takeParam i) := by unfold State.takeParam; split <;> exact h

end

theorem lineInv_checkSum (s : State) : LineInv s.checkSum := by
  unfold State.checkSum; split <;> exact lineInv_of_done rfl

theorem lineInv_tick (s : State) (hb : 0 < s.cfg.scanBound) (h : LineInv s) : LineInv (tick s).state := by
  have hwait : LineInv s.sendAsked := h
  have hasked : LineInv s.busyAsked := h
  cases hp : s.phase <;> simp only [LineInv, hp] at h <;> simp only [tick, hp]
  case idle => simp only [LineInv, Progress.state_rests, hp]
  case wDir => exact rfl
  case wMark0 | wMark1 => exact sendByte_keeps hwait h
  case wId | wLen => exact emit_keeps hwait h
  case wInstr => exact emit_keeps hwait (lineInv_afterInstr h)
  case wParam i => exact emit_keeps hwait (lineInv_afterParam (s := State.paramDrawn i _) h.1 i)
  case wChk => exact sendByte_keeps hwait (lineInv_afterChk h)
  case rDrain =>
    split
    · exact hasked
    · exact h
  case rDir => exact ⟨rfl, hb⟩
  case rScan => exact lineInv_scan h.1
  case rMark2 => exact lineInv_mark2 h
  case rId => exact lineInv_checkId h
  case rLen => exact lineInv_checkLen h
  case rErr => exact lineInv_stageErr h
  case rParam i => exact lineInv_takeParam h i
  case rChk => exact lineInv_checkSum s
  case done => trivial

/-! ## The counters -/

/-- SCAN_CNT and PIDX are within their ranges (R24, R25). -/
def CountersInRange (s : State) : Prop := s.scanCnt ≤ s.cfg.scanBound ∧ s.pidx ≤ Config.maxParam

section
variable {s : State} (h : CountersInRange s)
include h

theorem CountersInRange.afterInstr : CountersInRange s.afterInstr := by
  unfold State.afterInstr
  split
  · exact ⟨h.1, Nat.zero_le _⟩
  · exact h

/-- PIDX stays within the buffer of its APPEND, which is part of the packet's parameters. -/
theorem CountersInRange.afterParam {i : Nat} (hi : i < s.paramCount) (hn : s.paramCount ≤ Config.maxParam) :
    CountersInRange (s.afterParam i) :=
  ⟨h.1, (appendIndex_le s.lOp (i + 1)).trans (Nat.le_trans hi hn)⟩

theorem CountersInRange.afterChk : CountersInRange s.afterChk := by unfold State.afterChk; split <;> exact h

theorem CountersInRange.scan (hn : s.scanCnt < s.cfg.scanBound) : CountersInRange s.scan := by
  have hc : s.scan.scanCnt = s.scanCnt + 1 ∧ s.scan.pidx = s.pidx := by
    unfold State.scan
    split
    · simp
    · split <;> simp
  exact ⟨by rw [hc.1, State.cfg_of_fixed s.scan_fixed]; exact hn, by rw [hc.2]; exact h.2⟩

theorem CountersInRange.mark2 : CountersInRange s.mark2 := by
  unfold State.mark2; split <;> simpa [CountersInRange] using h

theorem CountersInRange.checkId : CountersInRange s.checkId := by
  unfold State.checkId; split <;> simpa [CountersInRange] using h

theorem CountersInRange.checkLen : CountersInRange s.checkLen := by
  unfold State.checkLen; split <;> simpa [CountersInRange] using h

theorem CountersInRange.stageErr : CountersInRange s.stageErr := ⟨h.1, Nat.zero_le _⟩

/-- PIDX stays within the reply. -/
theorem CountersInRange.takeParam {i : Nat} (hi : i < s.expLen) (hp : s.pidx = i) (hn : s.expLen ≤ Config.maxParam) :
    CountersInRange (s.takeParam i) :=
  ⟨h.1, by simp only [State.takeParam, State.goto_pidx, State.setPidx_pidx, hp]; exact Nat.le_trans hi hn⟩

theorem CountersInRange.checkSum : CountersInRange s.checkSum := by
  unfold State.checkSum; split <;> simpa [CountersInRange] using h

end

theorem countersInRange_tick {s : State} (hr : ReaderInv s) (hline : LineInv s) (hl : s.phase ≠ .idle → latchesLegal s)
    (h : CountersInRange s) : CountersInRange (tick s).state := by
  obtain ⟨hread, hpar⟩ := hr
  cases hp : s.phase <;> simp only [LineInv, hp] at hline <;> simp only [tick, hp]
  case idle | wDir | done => exact h
  case wMark0 | wMark1 => exact sendByte_keeps h h
  case wId | wLen => exact emit_keeps h h
  case wInstr => exact emit_keeps h (CountersInRange.afterInstr h)
  case wParam i =>
    obtain ⟨-, hn, -⟩ := hl (by simp [hp])
    exact emit_keeps h (CountersInRange.afterParam h hline.2.1 hn)
  case wChk => exact sendByte_keeps h (CountersInRange.afterChk h)
  case rDrain => split <;> exact h
  case rDir => exact ⟨Nat.zero_le _, h.2⟩
  case rScan => exact h.scan hline.2
  case rMark2 => exact h.mark2
  case rId => exact h.checkId
  case rLen => exact h.checkLen
  case rErr => exact h.stageErr
  case rParam i =>
    obtain ⟨-, -, hn⟩ := hl (by simp [hp])
    exact h.takeParam (hpar i hp).1 (hpar i hp).2 (hn (hread (by simp [hp, Phase.reads]))).1
  case rChk => exact h.checkSum

/-! ## Every step -/

theorem ControlInv.readerInv {s : State} (h : ControlInv s) : ReaderInv s := by
  obtain ⟨-, -, -, -, hphase⟩ := h
  exact ((phaseAgrees_iff s).1 hphase).1

/-- An idle block stays idle, so where a tick does not leave it idle it was not. -/
theorem phase_ne_idle_of_tick {s : State} (h : (tick s).state.phase ≠ .idle) : s.phase ≠ .idle := fun hp => by
  simp [tick, hp] at h

theorem controlInv_tick (s : State) (h : ControlInv s) : ControlInv (tick s).state := by
  obtain ⟨hcfg, hscan, hpidx, hlatch, hphase⟩ := h
  obtain ⟨hr, hline⟩ := (phaseAgrees_iff s).1 hphase
  have hf := tick_fixed s
  obtain ⟨hscan', hpidx'⟩ := countersInRange_tick hr hline hlatch ⟨hscan, hpidx⟩
  refine ⟨by rw [State.cfg_of_fixed hf]; exact hcfg, hscan', hpidx', fun hp => ?_, ?_⟩
  · exact latchesLegal_of_fixed hf (replyTail_tick s hr).1 (hlatch (phase_ne_idle_of_tick hp))
  · exact (phaseAgrees_iff _).2 ⟨readerInv_tick s hr, lineInv_tick s (Params.scanBound_pos hcfg) hline⟩

theorem controlInv_proceed {s : State} (h : ControlInv s) : ControlInv (proceed s) :=
  proceed_keeps (P := ControlInv) (fun _ h => h) controlInv_tick s h

theorem admissible_iff {i : Instr} {s : State} : admissible i s = true ↔
    i.format = .cmd ∧ i.wellFormed = true ∧ replyFits i s = true ∧ s.phase = .idle := by
  simp only [admissible, Bool.and_eq_true, decide_eq_true_eq, and_assoc]

/-- L_N holds the number of data bytes of a legal buffer (R26, R33). -/
theorem dataCount_toNat {buffer : List Byte} (h : bufferLegal buffer = true) :
    (BitVec.ofNat 8 buffer.length).toNat = buffer.length := by
  have hmax : buffer.length + 1 ≤ 253 := of_decide_eq_true h
  rw [BitVec.toNat_ofNat]
  omega

/-- An admitted call latches legal operands (R26, R33). -/
theorem latchesLegal_acceptedAs {i : Instr} {s : State} (h : admissible i s = true) : latchesLegal (s.acceptedAs i) := by
  obtain ⟨hcmd, hwf, hfit, -⟩ := admissible_iff.1 h
  cases i with
  | ping id => exact ⟨hwf, Nat.zero_le _, fun _ => ⟨Nat.zero_le _, Nat.zero_le _⟩⟩
  | reset id => exact ⟨hwf, Nat.zero_le _, fun _ => ⟨Nat.zero_le _, Nat.zero_le _⟩⟩
  | action id => exact ⟨hwf, Nat.zero_le _, fun h' => by simp [State.acceptedAs, replyExpected] at h'⟩
  | read id address length =>
    simp only [Instr.wellFormed, Bool.and_eq_true] at hwf
    exact ⟨hwf.1, (by decide : 2 ≤ Config.maxParam), fun _ => ⟨of_decide_eq_true hwf.2, of_decide_eq_true hfit⟩⟩
  | write id address buffer | regWrite id address buffer =>
    simp only [Instr.wellFormed, Bool.and_eq_true] at hwf
    have hn : (BitVec.ofNat 8 buffer.length).toNat = buffer.length := dataCount_toNat hwf.2
    have hmax : buffer.length + 1 ≤ Config.maxParam := of_decide_eq_true hwf.2
    refine ⟨hwf.1, ?_, fun _ => ⟨Nat.zero_le _, Nat.zero_le _⟩⟩
    simp only [State.paramCount, State.acceptedAs, State.acceptedWrite, State.accepted, paramLen, hn]
    omega
  | status => simp [Instr.format] at hcmd

theorem controlInv_acceptedAs {i : Instr} {s : State} (ha : admissible i s = true) (h : ControlInv s) :
    ControlInv (s.acceptedAs i) := by
  obtain ⟨hcfg, hscan, hpidx, -, -⟩ := h
  have hlatch := latchesLegal_acceptedAs ha
  cases i with
  | status => simp [admissible, Instr.format] at ha
  | _ => exact ⟨hcfg, hscan, hpidx, fun _ => hlatch, trivial⟩

theorem controlInv_exec {i : Instr} {s t : State} (h : ControlInv s) (he : exec i s = .next t) : ControlInv t := by
  obtain ⟨ha, rfl⟩ | ⟨id, len, err, params, chk, -, rfl⟩ := exec_cases he
  · exact controlInv_proceed (controlInv_acceptedAs ha h)
  · exact controlInv_proceed h

/-- The reset event leaves the block idle and draws its counters within their ranges (R41, log 3). -/
theorem controlInv_hardReset {s : State} (h : ControlInv s) : ControlInv s.hardReset := by
  obtain ⟨hcfg, -⟩ := h
  exact ⟨hcfg, Nat.lt_succ_iff.1 (Nat.mod_lt _ (Nat.succ_pos _)), Nat.lt_succ_iff.1 (Nat.mod_lt _ (Nat.succ_pos _)),
    fun hp => absurd rfl hp, trivial⟩

/-- Settles O53: every tick keeps the invariant (`controlInv_tick`); an admitted call and the reset event begin with it. -/
theorem controlInvKept : Obligations.ControlInvKept := by
  intro s t h hstep
  obtain ⟨-, rfl⟩ | ⟨-, -, i, -, he⟩ | ⟨-, -, rfl⟩ := step_cases hstep
  · exact controlInv_hardReset h
  · exact controlInv_exec (s := s.takeRequest) h he
  · exact controlInv_proceed h

end Sys2Proof.Machine
end

section
/-!
Frames: what a call, a status packet, a resumed step and any step leave alone (spec/10_state.md R26, R31, R32, R35).
-/
namespace Sys2Proof.Machine

/-! ## The frame of a run -/

theorem fixed_proceed (s : State) : (proceed s).fixed = s.watched.fixed :=
  runTicks_keeps (P := fun t => t.fixed = s.watched.fixed) (fun t h => (tick_fixed t).trans h) _ _ rfl

/-- What a run from `s` leaves alone on its way to `t`: the fixed fields, RXBUF behind the expected reply, and, when no reply is
expected, the receive path. -/
def RunFrame (s t : State) : Prop :=
  ReaderInv t ∧ t.fixed = s.fixed ∧ ReplyTailUntouched s.expLen s t ∧
    (replyExpected s.lOp s.lId = false → t.receivePath = s.receivePath)

theorem runFrame_tick {s t : State} (h : RunFrame s t) : RunFrame s (tick t).state := by
  obtain ⟨hinv, hfix, htail, hpath⟩ := h
  refine ⟨readerInv_tick t hinv, (tick_fixed t).trans hfix, htail.trans ?_, fun hno => ?_⟩
  · rw [← State.expLen_of_fixed hfix]
    exact replyTail_tick t hinv
  · have hread : t.phase.reads = false := by
      cases hr : t.phase.reads with
      | false => rfl
      | true => rw [← hno, ← State.lOp_of_fixed hfix, ← State.lId_of_fixed hfix, hinv.1 hr]
    exact (tick_receivePath hread).trans (hpath hno)

theorem runFrame_proceed {s : State} (h : ReaderInv s) : RunFrame s.watched (proceed s) :=
  runTicks_keeps (P := RunFrame s.watched) (fun _ => runFrame_tick) _ _ ⟨h, rfl, .of_eq rfl, fun _ => rfl⟩

/-- A call begins in `W_DIR`. -/
theorem acceptedAs_phase {i : Instr} (h : i.format = .cmd) (s : State) : (s.acceptedAs i).phase = .wDir := by
  cases i with
  | status => simp [Instr.format] at h
  | _ => rfl

theorem readerInv_acceptedAs {i : Instr} (h : i.format = .cmd) (s : State) : ReaderInv (s.acceptedAs i) :=
  readerInv_of_not_reads (by rw [acceptedAs_phase h]; rfl)

/-- Of the two ways a meaning answers (`exec_cases`) a call takes the first. -/
theorem exec_cmd_cases {i : Instr} {s t : State} (hc : i.format = .cmd) (h : exec i s = .next t) :
    admissible i s = true ∧ t = proceed (s.acceptedAs i) := by
  obtain h | ⟨id, len, err, params, chk, rfl, -⟩ := exec_cases h
  · exact h
  · simp [Instr.format] at hc

/-! ## Packets and resumed steps -/

/-- Settles O21: a status packet is put at the receiver, which is no part of the frame, and the block goes on
(`runFrame_proceed`). -/
theorem statusFrame : Obligations.StatusFrame := by
  intro id len err params chk s t hinv h
  cases h
  obtain ⟨-, hfix, htail, -⟩ := runFrame_proceed (s := s.receive _) hinv.readerInv
  obtain ⟨hhost, hpres, hreset, hlatch, htouched⟩ := State.fixed_eq_iff.1 hfix
  exact ⟨hhost, hpres, hreset, hlatch, htouched, htail⟩

/-- Settles O34: the step is a run from the phase (`runFrame_proceed`). -/
theorem resumeFrame : Obligations.ResumeFrame := by
  intro s t hinv hr hp h
  obtain ⟨hr', -⟩ | ⟨-, hp', -⟩ | ⟨-, -, rfl⟩ := step_cases h
  · simp [hr] at hr'
  · simp [hp] at hp'
  · obtain ⟨-, hfix, htail, hpath⟩ := runFrame_proceed hinv.readerInv
    obtain ⟨hhost, hpres, hreset, hlatch, htouched⟩ := State.fixed_eq_iff.1 hfix
    exact ⟨hhost, hpres.trans hp, hreset.trans hr, hlatch, htouched, htail,
      fun hno => State.receivePath_eq_iff.1 (hpath hno)⟩

/-! ## Calls -/

/-- Settles O32: an admitted call latches its operands (`State.acceptedAs`), and the run keeps them (`runFrame_proceed`). -/
theorem callFrame : Obligations.CallFrame := by
  intro i s t hc h
  obtain ⟨ha, rfl⟩ := exec_cmd_cases hc h
  obtain ⟨-, hfix, htail, hpath⟩ := runFrame_proceed (readerInv_acceptedAs hc s)
  obtain ⟨hhost, hpres, hreset, ⟨hop, hid, haddr, hlen, hn, hexp, htx⟩, htouched⟩ := State.fixed_eq_iff.1 hfix
  obtain ⟨-, hwf, -, -⟩ := admissible_iff.1 ha
  cases i with
  | ping | reset =>
    rw [State.watched_of_plain rfl] at htouched
    exact ⟨hhost, hpres, hreset, hid, congrArg some hop, htail, hexp, haddr, hlen, hn, htx, htouched⟩
  | read =>
    rw [State.watched_of_plain rfl] at htouched
    exact ⟨hhost, hpres, hreset, hid, congrArg some hop, htail, haddr, hlen, hexp, hn, htx, htouched⟩
  | action =>
    rw [State.watched_of_plain rfl] at htouched
    have hrx := (State.receivePath_eq_iff.1 (hpath rfl)).1
    exact ⟨hhost, hpres, hreset, hid, congrArg some hop, .of_eq hrx, hexp, haddr, hlen, hn, htx, htouched⟩
  | write id address buffer | regWrite id address buffer =>
    simp only [Instr.wellFormed, Bool.and_eq_true] at hwf
    have hcount := (congrArg BitVec.toNat hn).trans (dataCount_toNat hwf.2)
    exact ⟨hhost, hpres, hreset, hid, congrArg some hop, htail, haddr, hcount, hexp, htx, hlen⟩
  | status => simp [Instr.format] at hc

/-! ## Every step -/

theorem HostUntouched.trans {s t u : State} (h1 : HostUntouched s t) (h2 : HostUntouched t u) : HostUntouched s u := by
  obtain ⟨a1, b1, c1, d1, e1, f1⟩ := h1
  obtain ⟨a2, b2, c2, d2, e2, f2⟩ := h2
  exact ⟨a2.trans a1, b2.trans b1, c2.trans c1, d2.trans d1, e2.trans e1, f2.trans f1⟩

theorem hostUntouched_proceed (s : State) : HostUntouched s (proceed s) :=
  (State.fixed_eq_iff.1 (fixed_proceed s)).1

theorem hostUntouched_acceptedAs (i : Instr) (s : State) : HostUntouched s (s.acceptedAs i) := by
  cases i <;> exact ⟨rfl, rfl, rfl, rfl, rfl, rfl⟩

theorem hostUntouched_exec {i : Instr} {s t : State} (h : exec i s = .next t) : HostUntouched s t := by
  obtain ⟨-, rfl⟩ | ⟨id, len, err, params, chk, -, rfl⟩ := exec_cases h
  · exact (hostUntouched_acceptedAs i s).trans (hostUntouched_proceed _)
  · exact hostUntouched_proceed (s.receive _)

/-- Settles O35: no tick writes these fields (`tick_fixed`), and neither do acceptance and reset. -/
theorem hostStateNeverWritten : Obligations.HostStateNeverWritten := by
  intro s t h
  obtain ⟨-, rfl⟩ | ⟨-, -, i, -, he⟩ | ⟨-, -, rfl⟩ := step_cases h
  · exact ⟨rfl, rfl, rfl, rfl, rfl, rfl⟩
  · exact hostUntouched_exec (s := s.takeRequest) he
  · exact hostUntouched_proceed s

/-- `dev.err` is still `e`, or the call has succeeded and it is the staged error byte (R32, R141). -/
def DevErrFrom (e : Byte) (t : State) : Prop :=
  t.devErr = e ∨ (t.result = .success ∧ t.devErr = t.errStage ∧ (t.phase = .idle ∨ t.phase = .done))

theorem devErrFrom_tick {e : Byte} (t : State) (h : DevErrFrom e t) : DevErrFrom e (tick t).state := by
  obtain h | ⟨hres, herr, hp | hp⟩ := h
  · by_cases hp : t.phase = .rChk
    · simp only [tick, hp, Progress.state_moves]
      unfold State.checkSum
      split
      · exact .inl h
      · exact .inr ⟨rfl, rfl, .inr rfl⟩
    · exact .inl ((tick_devErr hp).trans h)
  · simp only [tick, hp]
    exact .inr ⟨hres, herr, .inl hp⟩
  · simp only [tick, hp]
    exact .inr ⟨hres, herr, .inl rfl⟩

theorem devErrFrom_proceed (s : State) : DevErrFrom s.devErr (proceed s) :=
  runTicks_keeps (P := DevErrFrom s.devErr) devErrFrom_tick _ _ (.inl rfl)

theorem devErrFrom_exec {i : Instr} {s t : State} (h : exec i s = .next t) : DevErrFrom s.devErr t := by
  obtain ⟨-, rfl⟩ | ⟨id, len, err, params, chk, -, rfl⟩ := exec_cases h
  · have hacc : (s.acceptedAs i).devErr = s.devErr := by cases i <;> rfl
    exact hacc ▸ devErrFrom_proceed (s.acceptedAs i)
  · exact devErrFrom_proceed (s.receive _)

/-- Settles O36: of all ticks only that of `R_CHK` writes `dev.err`, where it accepts the reply (`devErrFrom_tick`). -/
theorem devErrOnlyOnSuccess : Obligations.DevErrOnlyOnSuccess := by
  intro s t h
  obtain ⟨-, rfl⟩ | ⟨-, -, i, -, he⟩ | ⟨-, -, rfl⟩ := step_cases h
  · exact .inl rfl
  · exact devErrFrom_exec (s := s.takeRequest) he
  · exact devErrFrom_proceed s

end Sys2Proof.Machine
end

section
/-!
Admission and the host port (spec/10_state.md R33, R40; spec/42_instructions.md R169; spec/30_encoding.md R94), and the reset event
(spec/70_reset_and_hazards.md R230).
-/
namespace Sys2Proof.Machine

/-! ## Admission -/

/-- An admitted call is run from its acceptance (R40). -/
theorem exec_of_admissible {i : Instr} {s : State} (h : admissible i s = true) :
    exec i s = .next (proceed (s.acceptedAs i)) := by
  obtain ⟨hcmd, hwf, hfit, hidle⟩ := admissible_iff.1 h
  cases i with
  | ping id | action id | reset id => exact admitCall_idle hidle hwf
  | read id address length =>
    simp only [Instr.wellFormed, Bool.and_eq_true] at hwf
    have hfit : ¬ s.rxbuf.length < length.toNat := Nat.not_lt.2 (of_decide_eq_true hfit)
    refine (admitCall_idle hidle hwf.1).trans ?_
    rw [if_neg (by simp [hwf.2]), if_neg hfit]
    rfl
  | write id address buffer | regWrite id address buffer =>
    simp only [Instr.wellFormed, Bool.and_eq_true] at hwf
    refine (admitCall_idle hidle hwf.1).trans ?_
    rw [if_neg (by simp [hwf.2])]
    rfl
  | status => simp [Instr.format] at hcmd

/-- A fault has no constructor (R200). -/
theorem exec_next_or_refused (i : Instr) (s : State) : (∃ t, exec i s = .next t) ∨ ∃ r, exec i s = .refused r := by
  cases h : exec i s with
  | next t => exact .inl ⟨t, rfl⟩
  | fault r => cases r
  | refused r => exact .inr ⟨r, rfl⟩

/-- Settles O37: `exec_of_admissible` one way, `exec_cmd_cases` the other; what answers no state is a refusal. -/
theorem admissionExactly : Obligations.AdmissionExactly := by
  intro i s hc
  have hnext : (∃ t, exec i s = .next t) ↔ admissible i s = true :=
    ⟨fun ⟨_, ht⟩ => (exec_cmd_cases hc ht).1, fun ha => ⟨_, exec_of_admissible ha⟩⟩
  refine ⟨hnext, fun ⟨r, hr⟩ => ?_, fun ha => ?_⟩
  · rw [← Bool.not_eq_true, ← hnext]
    rintro ⟨t, ht⟩
    rw [ht] at hr
    cases hr
  · refine (exec_next_or_refused i s).resolve_left fun hn => ?_
    rw [hnext, ha] at hn
    cases hn

/-- While a call is under way every other is refused (R169, R215). -/
theorem exec_of_busy {i : Instr} {s : State} (hc : i.format = .cmd) (hp : s.phase ≠ .idle) :
    exec i s = .refused .portBusy := by
  cases i with
  | status => simp [Instr.format] at hc
  | _ => exact if_pos hp

/-! ## The step at the port -/

theorem step_of_fetch_ok {i : Instr} {s : State} (hr : s.resetReq = false) (hp : s.presented = true)
    (hf : s.fetch = .ok i) : step s = exec i s.takeRequest := by simp [step, hr, hp, hf]

theorem step_of_fetch_error {e : DecodeError} {s : State} (hr : s.resetReq = false) (hp : s.presented = true)
    (hf : s.fetch = .error e) : step s = .refused (refusalOf e) := by simp [step, hr, hp, hf]

/-- Settles O39: the two branches of `step` behind the reset event. -/
theorem stepRunsFetchedCall : Obligations.StepRunsFetchedCall :=
  fun _ s hr => ⟨step_of_fetch_ok hr, fun hp => by simp [step, hr, hp]⟩

/-! ## The call record -/

/-- The code that selects an operation is the operation's own (R87). -/
theorem code_of_opOf {c : Params} {b : Byte} {o : Op} (h : opOf c b = some o) : c.code o = b := by
  unfold opOf at h
  split_ifs at h with h1 h2 h3 h4 h5 h6 <;> cases h <;> simp [Params.code, *]

/-- Distinct codes select each its own operation (R87). -/
theorem opOf_code {c : Params} (h : c.legal = true) (o : Op) : opOf c (c.code o) = some o := by
  simp only [Params.legal, Params.codes, Bool.and_eq_true, decide_eq_true_eq, List.nodup_cons, List.mem_cons, not_or] at h
  obtain ⟨-, ⟨h12, h13, h14, h15, h16, -⟩, ⟨h23, h24, h25, h26, -⟩, ⟨h34, h35, h36, -⟩, ⟨h45, h46, -⟩, ⟨h56, -⟩, -⟩ := h
  cases o <;> simp [opOf, Params.code, *, eq_comm]

/-- A byte that is no operation's code selects none (R94). -/
theorem opOf_eq_none {c : Params} {b : Byte} (h : ∀ o : Op, c.code o ≠ b) : opOf c b = none := by
  cases ho : opOf c b with
  | none => rfl
  | some o => exact absurd (code_of_opOf ho) (h o)

/-- Settles O40: the branches of `decodeCall`, one for each operation. -/
theorem fetchedCallIsTheRecord : Obligations.FetchedCallIsTheRecord := by
  intro i s h
  unfold State.fetch decodeCall at h
  split at h
  · cases h
  · rename_i o ho
    have hcode := code_of_opOf ho
    split at h
    · cases h
    · rename_i hid
      have hid : idLegal s.devId = true := Bool.eq_true_of_not_eq_false hid
      cases o with
      | ping | action | reset =>
        cases h
        exact ⟨rfl, hid, rfl, ⟨_, rfl, hcode⟩, rfl, trivial⟩
      | read | write | regWrite =>
        dsimp only at h
        split at h
        · rename_i hlegal
          cases h
          exact ⟨rfl, by simp [Instr.wellFormed, hid, hlegal], rfl, ⟨_, rfl, hcode⟩, by simp [bufferInPlace], by simp⟩
        · cases h

/-- The record of a legal call decodes to it (R40, R94). -/
theorem fetch_place {i : Instr} {s : State} (hc : s.cfg.legal = true) (hf : i.format = .cmd) (hwf : i.wellFormed = true) :
    (s.place i).fetch = .ok i := by
  cases i with
  | status => simp [Instr.format] at hf
  | ping | action | reset =>
    have hid : idLegal _ = true := hwf
    simp [State.fetch, State.place, State.presentCall, decodeCall, opOf_code hc, hid]
  | read | write | regWrite =>
    simp only [Instr.wellFormed, Bool.and_eq_true] at hwf
    simp [State.fetch, State.place, State.presentCall, decodeCall, opOf_code hc, hwf]

/-- Settles O41: a legal call's record decodes to the call (`fetch_place`), and the step runs what it decodes to. -/
theorem placedCallRuns : Obligations.PlacedCallRuns := by
  intro i s hc hf hwf
  refine step_of_fetch_ok ?_ ?_ (fetch_place hc hf hwf) <;>
  · cases i with
    | status => simp [Instr.format] at hf
    | _ => rfl

/-- Every id but 255 is in the data model (R31, D11). -/
theorem idLegal_of_ne {id : Byte} (h : id ≠ 255) : idLegal id = true := by
  have hmax : id.toNat ≠ 255 := fun he => h (BitVec.eq_of_toNat_eq he)
  by_cases hb : id = Config.broadcastId
  · simp [idLegal, hb]
  · have hcast : id.toNat ≠ 254 := fun he => hb (BitVec.eq_of_toNat_eq he)
    have hle : id.toNat ≤ 253 := by omega
    simp only [idLegal, Bool.or_eq_true]
    exact .inl (decide_eq_true hle)

/-- Settles O42: the branches of `decodeCall` that answer an error, and the busy port (`exec_of_busy`). -/
theorem illegalRecordRefused : Obligations.IllegalRecordRefused := by
  intro s hc hr hp
  refine ⟨fun hop => ?_, fun op hop hid => ?_, fun hop hid hlen => ?_, fun hop hid hlen => ?_, fun i hi hbusy => ?_⟩
  · exact step_of_fetch_error (e := .unknownOperation _) hr hp (by simp [State.fetch, decodeCall, opOf_eq_none hop])
  · have hid : idLegal s.devId = false := by rw [hid]; rfl
    exact step_of_fetch_error (e := .idReserved) hr hp (by simp [State.fetch, decodeCall, hop, opOf_code hc, hid])
  · have hlen : replyLenLegal s.callLen = false := decide_eq_false (Nat.not_le.2 hlen)
    have hid := idLegal_of_ne hid
    exact step_of_fetch_error (e := .replyTooLong) hr hp
      (by simp [State.fetch, decodeCall, hop, opOf_code hc, hid, hlen])
  · have hlen : bufferLegal s.txbuf = false := decide_eq_false (by simp only [Config.maxParam]; omega)
    have hid := idLegal_of_ne hid
    obtain hop | hop := hop <;>
      exact step_of_fetch_error (e := .bufferTooLong) hr hp
        (by simp [State.fetch, decodeCall, hop, opOf_code hc, hid, hlen])
  · rw [step_of_fetch_ok hr hp hi]
    exact exec_of_busy (fetchedCallIsTheRecord i s hi).1 hbusy

/-! ## Reset -/

/-- Settles O54: an idle block with an empty trace, its counters drawn within their ranges. -/
theorem invariantsAtReset : Obligations.InvariantsAtReset :=
  ⟨.inl rfl, trivial, by decide, Nat.lt_succ_iff.1 (Nat.mod_lt _ (Nat.succ_pos _)),
    Nat.lt_succ_iff.1 (Nat.mod_lt _ (Nat.succ_pos _)), fun h => absurd rfl h, trivial⟩

/-- Settles O55: the step is `State.hardReset`, field by field. -/
theorem hardReset : Obligations.HardReset := fun s hr =>
  ⟨s.hardReset, if_pos hr, rfl, rfl, ⟨rfl, rfl, rfl, rfl, rfl, rfl⟩, rfl, rfl, rfl, rfl, rfl, rfl⟩

/-- After reset RXBUF holds as many bytes as the longest reply has parameters (log 4). -/
theorem replyFits_reset {i : Instr} (h : i.wellFormed = true) (hc : i.format = .cmd) : replyFits i State.reset = true := by
  have hcap : State.reset.rxbuf.length = Config.maxParam := by simp [State.reset]
  rw [replyFits, hcap]
  cases i with
  | read id address length =>
    simp only [Instr.wellFormed, Bool.and_eq_true] at h
    exact h.2
  | status => simp [Instr.format] at hc
  | _ => rfl

/-- Settles O56: every legal call is admissible at reset, so it is run (`exec_of_admissible`). -/
theorem resetAcceptsCalls : Obligations.ResetAcceptsCalls :=
  ⟨rfl, fun _ hc hwf => ⟨_, exec_of_admissible (admissible_iff.2 ⟨hc, hwf, replyFits_reset hwf hc, rfl⟩)⟩⟩

end Sys2Proof.Machine
end

section
/-!
The phase table (spec/10_state.md R27 to R29, spec/42_instructions.md R172): the event of each tick that moves, the phase it
leads to, and RESULT.
-/
namespace Sys2Proof.Machine

/-! ## The event of each operation -/

section
variable (s : State)

@[simp] theorem State.afterInstr_trace : s.afterInstr.trace = s.trace := by unfold State.afterInstr; split <;> rfl
@[simp] theorem State.afterParam_trace (i : Nat) : (s.afterParam i).trace = s.trace := rfl
@[simp] theorem State.afterChk_trace : s.afterChk.trace = s.trace := by unfold State.afterChk; split <;> rfl
@[simp] theorem State.scan_trace : s.scan.trace = s.trace ++ [.rx s.pollByte] := by
  unfold State.scan
  split
  · rfl
  · split <;> simp
@[simp] theorem State.mark2_trace : s.mark2.trace = s.trace ++ [.rx s.pollByte] := by
  unfold State.mark2; split <;> simp
@[simp] theorem State.checkId_trace : s.checkId.trace = s.trace ++ [.rx s.pollByte] := by
  unfold State.checkId; split <;> simp
@[simp] theorem State.checkLen_trace : s.checkLen.trace = s.trace ++ [.rx s.pollByte] := by
  unfold State.checkLen; split <;> simp
@[simp] theorem State.stageErr_trace : s.stageErr.trace = s.trace ++ [.rx s.pollByte] := rfl
@[simp] theorem State.takeParam_trace (i : Nat) : (s.takeParam i).trace = s.trace ++ [.rx s.pollByte] := rfl
@[simp] theorem State.checkSum_trace : s.checkSum.trace = s.trace ++ [.rx s.pollByte] := by
  unfold State.checkSum; split <;> simp

end

/-- A send that moves has sent its byte. -/
theorem sendByte_moves {b : Byte} {k : State → State} {s t : State} (h : sendByte b k s = .moves t) :
    t = k (s.sendAsked.log (.tx b)) := by
  obtain ⟨h', -⟩ | ⟨h', -⟩ := sendByte_cases b k s <;> rw [h'] at h <;> cases h
  rfl

theorem emit_moves {b : Byte} {k : State → State} {s t : State} (h : emit b k s = .moves t) :
    t = k ((s.sendAsked.log (.tx b)).addAcc b) := sendByte_moves h

/-- A drain query that moves was answered "not busy" (R133). -/
theorem drain_moves {s t : State} (hp : s.phase = .rDrain) (h : tick s = .moves t) :
    s.busyAnswer = false ∧ t = s.busyAsked.goto .rDir := by
  simp only [tick, hp] at h
  split at h
  · cases h
  · rename_i hb
    cases h
    exact ⟨by simpa using hb, rfl⟩

/-- Settles O43: by the phase; a send that moves has sent its byte (`sendByte_moves`), each poll logs what it returned. -/
theorem oneOperationPerPhase : Obligations.OneOperationPerPhase := by
  intro s t h
  cases hp : s.phase
  case rDrain =>
    obtain ⟨hb, rfl⟩ := drain_moves hp h
    simp [hb]
  all_goals simp only [tick, hp] at h
  case idle | done => cases h
  case wMark0 | wMark1 | wChk =>
    cases sendByte_moves h
    simp
  case wId | wLen | wInstr | wParam =>
    cases emit_moves h
    simp
  all_goals
    cases h
    simp

/-- Settles O44: by the phase, and within it by the operation's own branches. -/
theorem phaseTransitions : Obligations.PhaseTransitions := by
  intro s t h
  cases hp : s.phase
  case rDrain =>
    obtain ⟨-, rfl⟩ := drain_moves hp h
    simp
  all_goals simp only [tick, hp] at h
  case idle | done => cases h
  case wDir | rDir =>
    cases h
    simp
  case wMark0 | wMark1 =>
    cases sendByte_moves h
    simp
  case wId | wLen =>
    cases emit_moves h
    simp
  case wInstr =>
    cases emit_moves h
    have hcount (b : Byte) : ((s.sendAsked.log (.tx b)).addAcc b).paramCount = s.paramCount := rfl
    unfold State.afterInstr
    rw [hcount]
    split <;> simp
  case wParam i =>
    cases emit_moves h
    have hcount (b : Byte) : (((s.sendAsked.log (.tx b)).addAcc b).paramDrawn i).paramCount = s.paramCount := rfl
    unfold State.afterParam
    rw [hcount]
    split <;> rename_i hi <;> simp [hi]
  case wChk =>
    cases sendByte_moves h
    unfold State.afterChk
    split
    · have hexp : replyExpected s.lOp s.lId = true := ‹_›
      simp [hexp]
    · have hexp : ¬ replyExpected s.lOp s.lId = true := ‹_›
      simp [hexp]
  all_goals cases h
  case rScan =>
    simp only [State.scan]
    split
    · simp
    · split <;> simp
  case rMark2 =>
    unfold State.mark2
    split <;> simp
  case rId =>
    simp only [State.checkId, ← not_or, ne_eq, ite_not]
    split <;> simp
  case rLen =>
    simp only [State.checkLen, ne_eq, ite_not]
    split <;> simp
  case rErr =>
    simp only [State.stageErr]
    split <;> simp
  case rParam i =>
    simp only [State.takeParam]
    split <;> simp
  case rChk =>
    simp only [State.checkSum, ne_eq, ite_not]
    split <;> simp

end Sys2Proof.Machine
end

section
/-!
A change of the call record or of `dev.id` during a call (spec/10_state.md R26, spec/20_memory.md R70, D13): every tick commutes
with it.
-/
namespace Sys2Proof.Machine

/-- The host changes `dev.id` and the call record. -/
def State.withRecord (id op address length : Byte) (s : State) : State :=
  { s with devId := id, callOp := op, callAddr := address, callLen := length }

/-- A progress in which the host changes the record. -/
def Progress.withRecord (id op address length : Byte) : Progress → Progress
  | .moves t => .moves (t.withRecord id op address length)
  | .rests t => .rests (t.withRecord id op address length)

section
variable (id op address length : Byte) (s : State)

theorem State.withRecord_pollByte : (s.withRecord id op address length).pollByte = s.pollByte := rfl

theorem State.withRecord_polled : (s.withRecord id op address length).polled = s.polled.withRecord id op address length := rfl

theorem State.withRecord_taken : (s.withRecord id op address length).taken = s.taken.withRecord id op address length := rfl

theorem State.withRecord_fail (e : Result) :
    (s.withRecord id op address length).fail e = (s.fail e).withRecord id op address length := rfl

theorem sendByte_withRecord (b : Byte) (k : State → State)
    (hk : ∀ t : State, k (t.withRecord id op address length) = (k t).withRecord id op address length) :
    sendByte b k (s.withRecord id op address length) = (sendByte b k s).withRecord id op address length := by
  have hready : (s.withRecord id op address length).sendReady = s.sendReady := rfl
  unfold sendByte
  rw [hready]
  split
  · exact congrArg Progress.moves (hk (s.sendAsked.log (.tx b)))
  · rfl

theorem State.withRecord_afterInstr :
    (s.withRecord id op address length).afterInstr = s.afterInstr.withRecord id op address length := by
  have hcount : (s.withRecord id op address length).paramCount = s.paramCount := rfl
  unfold State.afterInstr
  rw [hcount]
  split <;> rfl

theorem State.withRecord_afterChk :
    (s.withRecord id op address length).afterChk = s.afterChk.withRecord id op address length := by
  have hop : (s.withRecord id op address length).lOp = s.lOp := rfl
  have hid : (s.withRecord id op address length).lId = s.lId := rfl
  unfold State.afterChk
  rw [hop, hid]
  split <;> rfl

theorem State.withRecord_scan : (s.withRecord id op address length).scan = s.scan.withRecord id op address length := by
  have hcnt : (s.withRecord id op address length).scanCnt = s.scanCnt := rfl
  have hcfg : (s.withRecord id op address length).cfg = s.cfg := rfl
  simp only [State.scan, State.withRecord_pollByte, State.withRecord_polled, hcnt, hcfg]
  split
  · rfl
  · split
    · rfl
    · exact State.withRecord_fail id op address length (s.polled.setScanCnt _) _

theorem State.withRecord_mark2 : (s.withRecord id op address length).mark2 = s.mark2.withRecord id op address length := by
  unfold State.mark2
  rw [State.withRecord_pollByte, State.withRecord_polled]
  split
  · rfl
  · exact State.withRecord_fail id op address length s.polled _

theorem State.withRecord_checkId :
    (s.withRecord id op address length).checkId = s.checkId.withRecord id op address length := by
  have hid : (s.withRecord id op address length).lId = s.lId := rfl
  simp only [State.checkId, State.withRecord_pollByte, State.withRecord_taken, State.withRecord_fail, hid]
  split <;> rfl

theorem State.withRecord_checkLen :
    (s.withRecord id op address length).checkLen = s.checkLen.withRecord id op address length := by
  have hexp : (s.withRecord id op address length).expLen = s.expLen := rfl
  simp only [State.checkLen, State.withRecord_pollByte, State.withRecord_taken, State.withRecord_fail, hexp]
  split <;> rfl

theorem State.withRecord_checkSum :
    (s.withRecord id op address length).checkSum = s.checkSum.withRecord id op address length := by
  have hacc : (s.withRecord id op address length).acc = s.acc := rfl
  simp only [State.checkSum, State.withRecord_pollByte, State.withRecord_polled, State.withRecord_fail, hacc]
  split <;> rfl

/-- No transport operation and no check looks at the record (R26). -/
theorem tick_withRecord : tick (s.withRecord id op address length) = (tick s).withRecord id op address length := by
  have hphase : (s.withRecord id op address length).phase = s.phase := rfl
  cases hp : s.phase <;> simp only [tick, hphase, hp]
  case idle | wDir | rDir | rErr | rParam | done => rfl
  case wMark0 | wMark1 | wId | wLen | wParam => exact sendByte_withRecord _ _ _ _ _ _ _ fun _ => rfl
  case wInstr =>
    refine sendByte_withRecord _ _ _ _ _ _ _ fun t => ?_
    exact State.withRecord_afterInstr _ _ _ _ (t.addAcc _)
  case wChk => exact sendByte_withRecord _ _ _ _ _ _ _ fun t => t.withRecord_afterChk _ _ _ _
  case rDrain =>
    have hbusy : (s.withRecord id op address length).busyAnswer = s.busyAnswer := rfl
    rw [hbusy]
    split <;> rfl
  case rScan => exact congrArg Progress.moves (s.withRecord_scan _ _ _ _)
  case rMark2 => exact congrArg Progress.moves (s.withRecord_mark2 _ _ _ _)
  case rId => exact congrArg Progress.moves (s.withRecord_checkId _ _ _ _)
  case rLen => exact congrArg Progress.moves (s.withRecord_checkLen _ _ _ _)
  case rChk => exact congrArg Progress.moves (s.withRecord_checkSum _ _ _ _)

theorem runTicks_withRecord (n : Nat) :
    runTicks n (s.withRecord id op address length) = (runTicks n s).withRecord id op address length := by
  induction n generalizing s with
  | zero => rfl
  | succ n ih =>
    simp only [runTicks, tick_withRecord]
    cases tick s with
    | moves t => exact ih t
    | rests t => rfl

end

/-- Settles O49: every tick commutes with the change (`tick_withRecord`), so the run does. -/
theorem latchesNotRecord : Obligations.LatchesNotRecord :=
  fun s id op address length => runTicks_withRecord id op address length s.watched s.ticks

end Sys2Proof.Machine
end

section
/-!
A call does not depend on what was in the block before it (spec/10_state.md R39, spec/60_exceptions.md R210): two runs that agree on
the call, the buffers and the transport's answers (`SameFlow`) and on the registers the phase has already written
(`SameLive`) stay so.
-/
namespace Sys2Proof.Machine

/-! ## Two runs of one call -/

/-- Two states are in the same call: the same parameters, latches as far as the operation has them, buffers, `dev.err`, trace and
transport's answers. -/
structure SameFlow (s t : State) : Prop where
  cfg : t.cfg = s.cfg
  lOp : t.lOp = s.lOp
  lId : t.lId = s.lId
  lAddr : s.lOp = .read ∨ sendsData s.lOp = true → t.lAddr = s.lAddr
  lLen : s.lOp = .read → t.lLen = s.lLen
  lN : sendsData s.lOp = true → t.lN = s.lN
  txChanged : sendsData s.lOp = true → t.txChanged = s.txChanged
  lExpLen : replyExpected s.lOp s.lId = true → t.lExpLen = s.lExpLen
  devErr : t.devErr = s.devErr
  txbuf : t.txbuf = s.txbuf
  rxbuf : t.rxbuf = s.rxbuf
  trace : t.trace = s.trace
  sendAnswers : t.sendAnswers = s.sendAnswers
  busyAnswers : t.busyAnswers = s.busyAnswers
  rxAnswers : t.rxAnswers = s.rxAnswers
  draws : t.draws = s.draws

/-- The registers the call has written by the phase it is in, and will still read, are the same (R21, R23, R24, R25, R29). -/
def SameLive (s t : State) : Prop :=
  match s.phase with
  | .wDir | .wMark0 | .wMark1 | .rDrain | .rDir | .rMark2 => True
  | .wId | .wLen | .wInstr | .wChk | .rId | .rLen | .rErr => t.acc = s.acc
  | .wParam _ => t.acc = s.acc ∧ t.pidx = s.pidx
  | .rScan => t.scanCnt = s.scanCnt
  | .rParam _ => t.acc = s.acc ∧ t.errStage = s.errStage ∧ t.pidx = s.pidx
  | .rChk => t.acc = s.acc ∧ t.errStage = s.errStage
  | .idle | .done => t.result = s.result

/-- Two runs of one call, equally far. -/
def SameCall (s t : State) : Prop := SameFlow s t ∧ t.phase = s.phase ∧ SameLive s t

/-- Two runs both move on or both rest. -/
def Progress.Same : Progress → Progress → Prop
  | .moves s, .moves t => SameCall s t
  | .rests s, .rests t => SameCall s t
  | _, _ => False

theorem State.txChanged_watched (s : State) : s.watched.txChanged = s.txChanged := by
  change ((s.txTouched || (sendsData s.lOp && s.phase.writes && s.txChanged)) || decide (s.txbuf ≠ s.lTx)) = s.txChanged
  unfold State.txChanged
  generalize decide (s.txbuf ≠ s.lTx) = differs
  cases s.txTouched <;> cases differs <;> simp

/-! ## What both runs see alike -/

namespace SameFlow

variable {s t : State} (h : SameFlow s t)
include h

theorem paramCount : t.paramCount = s.paramCount := by
  have hn := h.lN
  unfold State.paramCount
  rw [h.lOp]
  cases hop : s.lOp with
  | write | regWrite => rw [hn (by rw [hop]; rfl)]
  | _ => rfl

theorem knownParam (hp : t.pidx = s.pidx) (i : Nat) : t.knownParam i = s.knownParam i := by
  have haddr := h.lAddr
  have hlen := h.lLen
  have hdata (hd : sendsData s.lOp = true) : t.dataByte = s.dataByte := by
    simp only [State.dataByte, h.txChanged hd, h.txbuf, hp]
  unfold State.knownParam
  rw [h.lOp]
  cases hop : s.lOp with
  | read =>
    rw [haddr (.inl hop), hlen hop]
    rcases i with _ | _ | i <;> rfl
  | write | regWrite =>
    have hd : sendsData s.lOp = true := by rw [hop]; rfl
    rw [haddr (.inr hd), hdata hd]
    rcases i with _ | i <;> rfl
  | _ => rfl

theorem paramByte (hp : t.pidx = s.pidx) (i : Nat) : t.paramByte i = s.paramByte i := by
  simp only [State.paramByte, h.knownParam hp, h.draws]

theorem sendReady : t.sendReady = s.sendReady := by simp only [State.sendReady, h.sendAnswers, h.draws]

theorem busyAnswer : t.busyAnswer = s.busyAnswer := by simp only [State.busyAnswer, h.busyAnswers, h.draws]

theorem pollByte : t.pollByte = s.pollByte := by simp only [State.pollByte, h.rxAnswers, h.draws]

theorem expLen (he : replyExpected s.lOp s.lId = true) : t.expLen = s.expLen := by
  simp only [State.expLen, h.lExpLen he]

/-! ## The operations keep it -/

theorem log (e : Event) : SameFlow (s.log e) (t.log e) := { h with trace := by simp [h.trace] }

theorem sendAsked : SameFlow s.sendAsked t.sendAsked :=
  { h with sendAnswers := by simp [h.sendAnswers], draws := by simp [h.sendAnswers, h.draws] }

theorem busyAsked : SameFlow s.busyAsked t.busyAsked :=
  { h with
    trace := by simp [h.trace, h.busyAnswer]
    busyAnswers := by simp [h.busyAnswers]
    draws := by simp [h.busyAnswers, h.draws] }

theorem polled : SameFlow s.polled t.polled :=
  { h with
    trace := by simp [h.trace, h.pollByte]
    rxAnswers := by simp [h.rxAnswers]
    draws := by simp [h.rxAnswers, h.draws] }

theorem paramDrawn (hp : t.pidx = s.pidx) (i : Nat) : SameFlow (s.paramDrawn i) (t.paramDrawn i) :=
  { h with draws := by simp [h.draws, h.knownParam hp] }

theorem putReply (i : Nat) (b : Byte) : SameFlow (s.putReply i b) (t.putReply i b) :=
  { h with rxbuf := by simp [h.rxbuf] }

theorem goto {p : Phase} (hlive : SameLive (s.goto p) (t.goto p)) : SameCall (s.goto p) (t.goto p) :=
  ⟨{ h with }, rfl, hlive⟩

theorem fail (he : replyExpected s.lOp s.lId = true) (e : Result) : SameCall (s.fail e) (t.fail e) :=
  ⟨{ h with
      rxbuf := by simp [h.rxbuf, h.draws, h.expLen he]
      draws := by simp [h.rxbuf, h.draws, h.expLen he] }, rfl, rfl⟩

theorem succeed : SameCall s.succeed t.succeed := ⟨{ h with }, rfl, rfl⟩

theorem accept (herr : t.errStage = s.errStage) : SameCall s.accept t.accept :=
  ⟨{ h with devErr := herr }, rfl, rfl⟩

theorem afterInstr (hacc : t.acc = s.acc) : SameCall s.afterInstr t.afterInstr := by
  unfold State.afterInstr
  rw [h.paramCount]
  split
  · exact ⟨{ h with }, rfl, hacc, rfl⟩
  · exact h.goto hacc

theorem afterParam (hacc : t.acc = s.acc) (i : Nat) : SameCall (s.afterParam i) (t.afterParam i) := by
  unfold State.afterParam
  rw [h.paramCount, h.lOp]
  split
  · exact ⟨{ h with }, rfl, hacc, rfl⟩
  · exact ⟨{ h with }, rfl, hacc⟩

theorem afterChk : SameCall s.afterChk t.afterChk := by
  unfold State.afterChk
  rw [h.lOp, h.lId]
  split
  · exact h.goto trivial
  · exact h.succeed

theorem taken : SameFlow s.taken t.taken := { h.polled with }

/-- Looking at TXBUF does not change what is known of it. -/
theorem watched : SameFlow s.watched t.watched :=
  { h with txChanged := fun hd => by rw [State.txChanged_watched, State.txChanged_watched]; exact h.txChanged hd }

variable (he : replyExpected s.lOp s.lId = true)
include he

theorem scan (hcnt : t.scanCnt = s.scanCnt) : SameCall s.scan t.scan := by
  have hpolled : SameFlow (s.polled.setScanCnt (s.scanCnt + 1)) (t.polled.setScanCnt (s.scanCnt + 1)) := { h.polled with }
  simp only [State.scan, h.pollByte, h.cfg, hcnt]
  split
  · exact hpolled.goto trivial
  · split
    · exact hpolled.goto rfl
    · exact hpolled.fail he _

theorem mark2 : SameCall s.mark2 t.mark2 := by
  unfold State.mark2
  rw [h.pollByte]
  split
  · exact ⟨{ h.polled with }, rfl, rfl⟩
  · exact h.polled.fail he _

theorem checkId (hacc : t.acc = s.acc) : SameCall s.checkId t.checkId := by
  unfold State.checkId
  rw [h.pollByte, h.lId]
  split
  · exact h.taken.fail he _
  · exact h.taken.goto (by simp [SameLive, hacc, h.pollByte])

theorem checkLen (hacc : t.acc = s.acc) : SameCall s.checkLen t.checkLen := by
  unfold State.checkLen
  rw [h.pollByte, h.expLen he]
  split
  · exact h.taken.fail he _
  · exact h.taken.goto (by simp [SameLive, hacc, h.pollByte])

theorem stageErr (hacc : t.acc = s.acc) : SameCall s.stageErr t.stageErr := by
  have hacc' : t.taken.acc = s.taken.acc := by simp [hacc, h.pollByte]
  unfold State.stageErr
  rw [h.pollByte, h.expLen he]
  split
  · exact ⟨{ h.taken with }, rfl, hacc', rfl, rfl⟩
  · exact ⟨{ h.taken with }, rfl, hacc', rfl⟩

theorem takeParam (hacc : t.acc = s.acc) (herr : t.errStage = s.errStage) (hp : t.pidx = s.pidx) (i : Nat) :
    SameCall (s.takeParam i) (t.takeParam i) := by
  have hacc' : t.taken.acc = s.taken.acc := by simp [hacc, h.pollByte]
  unfold State.takeParam
  rw [h.pollByte, h.expLen he, hp]
  split
  · exact ⟨{ h.taken.putReply s.pidx s.pollByte with }, rfl, hacc', herr, rfl⟩
  · exact ⟨{ h.taken.putReply s.pidx s.pollByte with }, rfl, hacc', herr⟩

theorem checkSum (hacc : t.acc = s.acc) (herr : t.errStage = s.errStage) : SameCall s.checkSum t.checkSum := by
  unfold State.checkSum
  rw [h.pollByte, hacc]
  split
  · exact h.polled.fail he _
  · exact h.polled.accept herr

end SameFlow

/-! ## Both runs -/

theorem sendByte_same {s t : State} {b : Byte} {k l : State → State} (h : SameCall s t)
    (hsent : SameCall (k (s.sendAsked.log (.tx b))) (l (t.sendAsked.log (.tx b)))) :
    (sendByte b k s).Same (sendByte b l t) := by
  obtain ⟨hflow, hphase, hlive⟩ := h
  unfold sendByte
  rw [hflow.sendReady]
  split
  · exact hsent
  · exact ⟨hflow.sendAsked, hphase, hlive⟩

theorem tick_same {s t : State} (hr : ReaderInv s) (h : SameCall s t) : (tick s).Same (tick t) := by
  obtain ⟨hflow, hphase, hlive⟩ := id h
  have hsent (b : Byte) : SameFlow (s.sendAsked.log (.tx b)) (t.sendAsked.log (.tx b)) := hflow.sendAsked.log _
  have hadded (b : Byte) : SameFlow ((s.sendAsked.log (.tx b)).addAcc b) ((t.sendAsked.log (.tx b)).addAcc b) :=
    { hsent b with }
  have hadd (hacc : t.acc = s.acc) (b : Byte) : t.acc + b = s.acc + b := by rw [hacc]
  cases hp : s.phase <;> simp only [SameLive, hp] at hlive <;> simp only [tick, hphase, hp]
  case idle => exact h
  case wDir => exact ⟨{ hflow.log (.dir .transmit) with }, rfl, trivial⟩
  case wMark0 => exact sendByte_same h ((hsent _).goto trivial)
  case wMark1 => exact sendByte_same h ⟨{ hsent _ with }, rfl, rfl⟩
  case wId =>
    rw [hflow.lId]
    exact sendByte_same h ((hadded _).goto (hadd hlive _))
  case wLen =>
    rw [hflow.paramCount]
    exact sendByte_same h ((hadded _).goto (hadd hlive _))
  case wInstr =>
    rw [hflow.cfg, hflow.lOp]
    exact sendByte_same h ((hadded _).afterInstr (hadd hlive _))
  case wParam i =>
    obtain ⟨hacc, hpidx⟩ := hlive
    rw [hflow.paramByte hpidx]
    exact sendByte_same h (((hadded _).paramDrawn hpidx i).afterParam (hadd hacc _) i)
  case wChk =>
    rw [hlive]
    exact sendByte_same h (hsent _).afterChk
  case rDrain =>
    rw [hflow.busyAnswer]
    split
    · exact ⟨hflow.busyAsked, hphase, by simp [SameLive, hp]⟩
    · exact hflow.busyAsked.goto trivial
  case rDir => exact ⟨{ hflow.log (.dir .receive) with }, rfl, rfl⟩
  case done => exact hflow.goto hlive
  all_goals have he : replyExpected s.lOp s.lId = true := hr.1 (by simp [hp, Phase.reads])
  case rScan => exact hflow.scan he hlive
  case rMark2 => exact hflow.mark2 he
  case rId => exact hflow.checkId he hlive
  case rLen => exact hflow.checkLen he hlive
  case rErr => exact hflow.stageErr he hlive
  case rParam i => exact hflow.takeParam he hlive.1 hlive.2.1 hlive.2.2 i
  case rChk => exact hflow.checkSum he hlive.1 hlive.2

theorem runTicks_same (n : Nat) {s t : State} (hr : ReaderInv s) (h : SameCall s t) :
    SameCall (runTicks n s) (runTicks n t) := by
  induction n generalizing s t with
  | zero => exact h
  | succ n ih =>
    have hsame := tick_same hr h
    have hr' := readerInv_tick s hr
    unfold runTicks
    cases hs : tick s <;> cases ht : tick t <;> rw [hs, ht] at hsame <;> rw [hs] at hr'
    case moves.moves => exact ih hr' hsame
    case rests.rests => exact hsame
    all_goals exact hsame.elim

/-- From its acceptance on a call is the same in both. -/
theorem sameFlow_acceptedAs {i : Instr} {s t : State} (hc : i.format = .cmd) (hcfg : t.cfg = s.cfg)
    (herr : t.devErr = s.devErr) (htx : t.txbuf = s.txbuf) (hrx : t.rxbuf = s.rxbuf)
    (hsend : t.sendAnswers = s.sendAnswers) (hbusy : t.busyAnswers = s.busyAnswers)
    (hpoll : t.rxAnswers = s.rxAnswers) (hdraws : t.draws = s.draws) :
    SameFlow (s.acceptedAs i) (t.acceptedAs i) := by
  cases i with
  | status => simp [Instr.format] at hc
  | write _ _ buffer | regWrite _ _ buffer =>
    constructor
    case txChanged => exact fun _ => congrArg (fun b => false || decide (b ≠ buffer)) htx
    all_goals simp [State.acceptedAs, State.acceptedWrite, *]
  | read => constructor <;> simp [State.acceptedAs, State.acceptedRead, sendsData, *]
  | ping | reset | action => constructor <;> simp [State.acceptedAs, State.acceptedPlain, sendsData, replyExpected, *]

/-- Settles O50: from its acceptance on a call is the same run (`SameFlow`), and no tick tells two runs apart (`tick_same`). -/
theorem historyIrrelevant : Obligations.HistoryIrrelevant := by
  intro i s1 s2 t1 t2 hc hcfg herr htx hrx hsend hbusy hpoll hdraws h1 h2
  obtain ⟨-, rfl⟩ := exec_cmd_cases hc h1
  obtain ⟨-, rfl⟩ := exec_cmd_cases hc h2
  have hflow := sameFlow_acceptedAs hc hcfg.symm herr.symm htx.symm hrx.symm hsend.symm hbusy.symm hpoll.symm hdraws.symm
  have hphase : (s2.acceptedAs i).phase = (s1.acceptedAs i).phase := by
    rw [acceptedAs_phase hc, acceptedAs_phase hc]
  have hstart : SameCall (s1.acceptedAs i).watched (s2.acceptedAs i).watched :=
    ⟨hflow.watched, hphase, by simp [SameLive, acceptedAs_phase hc]⟩
  have hticks : (s2.acceptedAs i).ticks = (s1.acceptedAs i).ticks := by simp only [State.ticks, hflow.cfg]
  obtain ⟨hflow, hphase, hlive⟩ := runTicks_same (s1.acceptedAs i).ticks
    (readerInv_of_not_reads (by simp [acceptedAs_phase hc, Phase.reads])) hstart
  unfold proceed
  rw [hticks]
  refine ⟨hflow.trace.symm, hphase.symm, hflow.devErr.symm, hflow.rxbuf.symm, fun hidle => ?_⟩
  simp only [SameLive, hidle] at hlive
  exact hlive.symm

end Sys2Proof.Machine
end

section
/-!
SUPPORT. A command packet the transport accepts byte by byte (spec/40_packet_writer.md R112 to R115): the writer's phases lead from
the acceptance of a call to `State.commandSent`.
-/
namespace Sys2Proof.Machine

/-! ## Sends the transport accepts -/

/-- A byte has been sent that the transport accepted at once. -/
def State.sentByte (b : Byte) (s : State) : State := { s.log (.tx b) with sendAnswers := s.sendAnswers.tail }

/-- Bytes have been sent and added to ACC. -/
def State.emitted (bytes : List Byte) (s : State) : State :=
  { s with
    acc := s.acc + sum8 bytes
    trace := s.trace ++ bytes.map Event.tx
    sendAnswers := s.sendAnswers.drop bytes.length }

theorem State.emitted_nil (s : State) : s.emitted [] = s := by simp [State.emitted, sum8]

theorem State.emitted_cons (b : Byte) (bytes : List Byte) (s : State) :
    s.emitted (b :: bytes) = (s.emitted [b]).emitted bytes := by
  simp [State.emitted, sum8, BitVec.add_assoc]

theorem State.emitted_singleton (b : Byte) (s : State) : s.emitted [b] = (s.sentByte b).addAcc b := by
  simp [State.emitted, State.sentByte, State.addAcc, State.log, sum8]

theorem acceptsBytes_succ {n : Nat} {s : State} (h : acceptsBytes (n + 1) s = true) :
    ∃ rest, s.sendAnswers = true :: rest ∧ rest.take n = List.replicate n true := by
  have h := of_decide_eq_true h
  cases hs : s.sendAnswers with
  | nil => simp [hs, List.replicate_succ] at h
  | cons a rest =>
    rw [hs, List.take_succ_cons, List.replicate_succ, List.cons.injEq] at h
    obtain ⟨rfl, h⟩ := h
    exact ⟨rest, rfl, h⟩

theorem sendByte_of_accepts {n : Nat} {s : State} (h : acceptsBytes (n + 1) s = true) (b : Byte) (k : State → State) :
    sendByte b k s = .moves (k (s.sentByte b)) := by
  obtain ⟨rest, hs, -⟩ := acceptsBytes_succ h
  rw [sendByte_ready hs]
  simp [State.sentByte, hs, State.log]

theorem emit_of_accepts {n : Nat} {s : State} (h : acceptsBytes (n + 1) s = true) (b : Byte) (k : State → State) :
    emit b k s = .moves (k (s.emitted [b])) := by
  rw [State.emitted_singleton]
  exact sendByte_of_accepts h b _

/-- What the transport accepts it accepts one byte at a time. -/
theorem acceptsBytes_tail {n : Nat} {s t : State} (h : acceptsBytes (n + 1) s = true)
    (ht : t.sendAnswers = s.sendAnswers.tail) : acceptsBytes n t = true := by
  obtain ⟨rest, hs, hrest⟩ := acceptsBytes_succ h
  exact decide_eq_true (by rw [ht, hs]; exact hrest)

theorem acceptsBytes_of_le {m n : Nat} {s : State} (h : acceptsBytes n s = true) (hle : m ≤ n) :
    acceptsBytes m s = true := by
  have htake := congrArg (List.take m) (of_decide_eq_true h)
  rw [List.take_take, List.take_replicate, Nat.min_eq_left hle] at htake
  exact decide_eq_true htake

theorem acceptsBytes_drop {m n : Nat} {s t : State} (h : acceptsBytes (m + n) s = true)
    (ht : t.sendAnswers = s.sendAnswers.drop m) : acceptsBytes n t = true := by
  have hdrop := congrArg (List.drop m) (of_decide_eq_true h)
  rw [List.drop_take, List.drop_replicate, Nat.add_sub_cancel_left] at hdrop
  exact decide_eq_true (by rw [ht, hdrop])

theorem emitted_sendAnswers (b : Byte) (s : State) : (s.emitted [b]).sendAnswers = s.sendAnswers.tail := by
  simp [State.emitted]

/-! ## The parameters -/

/-- From the parameter `i` on the parameters of the call are `params`, and the rules fix each of them (R86). -/
def ParamsKnown (i : Nat) (params : List Byte) (s : State) : Prop :=
  s.paramCount = i + params.length ∧
    ∀ j b, params[j]? = some b → (s.setPidx (appendIndex s.lOp (i + j))).knownParam (i + j) = some b

/-- The parameter bytes rest on the latches, TXBUF and PIDX alone (R86). -/
theorem State.knownParam_of_fixed {s t : State} (h : t.fixed = s.fixed) (hp : t.pidx = s.pidx) (i : Nat) :
    t.knownParam i = s.knownParam i := by
  simp only [State.fixed, Prod.mk.injEq] at h
  obtain ⟨⟨-, -, -, -, -, htxbuf, -⟩, hop, -, haddr, hlen, -, -, htx, htouched⟩ := h
  have hdata : t.dataByte = s.dataByte := by
    unfold State.dataByte State.txChanged
    rw [htouched, htxbuf, htx, hp]
  unfold State.knownParam
  rw [hop, haddr, hlen, hdata]

theorem ParamsKnown.of_fixed {i : Nat} {params : List Byte} {s t : State} (h : ParamsKnown i params s)
    (ht : t.fixed = s.fixed) : ParamsKnown i params t := by
  obtain ⟨hcount, hbytes⟩ := h
  refine ⟨by rw [State.paramCount_of_fixed ht, hcount], fun j b hb => ?_⟩
  rw [← hbytes j b hb, State.lOp_of_fixed ht]
  have hset : (t.setPidx (appendIndex s.lOp (i + j))).fixed = (s.setPidx (appendIndex s.lOp (i + j))).fixed := ht
  exact State.knownParam_of_fixed hset rfl _

theorem ParamsKnown.tail {i : Nat} {b : Byte} {rest : List Byte} {s t : State} (h : ParamsKnown i (b :: rest) s)
    (ht : t.fixed = s.fixed) : ParamsKnown (i + 1) rest t := by
  obtain ⟨hcount, hbytes⟩ := h.of_fixed ht
  refine ⟨by rw [hcount, List.length_cons]; omega, fun j c hc => ?_⟩
  have hj : i + 1 + j = i + (j + 1) := by omega
  rw [hj]
  exact hbytes (j + 1) c (by simpa using hc)

@[simp] theorem State.sentByte_fixed (b : Byte) (s : State) : (s.sentByte b).fixed = s.fixed := rfl
@[simp] theorem State.emitted_fixed (bytes : List Byte) (s : State) : (s.emitted bytes).fixed = s.fixed := rfl

/-- The state after all parameters from the state in which they begin. -/
def State.paramsSent (params : List Byte) (s : State) : State :=
  ({ s.emitted params with pidx := appendIndex s.lOp s.paramCount }).goto .wChk

theorem State.paramsSent_cons (b : Byte) (rest : List Byte) (k : Nat) (p : Phase) (s : State) :
    (((s.emitted [b]).setPidx k).goto p).paramsSent rest = s.paramsSent (b :: rest) := by
  have hcount : (((s.emitted [b]).setPidx k).goto p).paramCount = s.paramCount := rfl
  unfold State.paramsSent
  rw [hcount, s.emitted_cons b rest]
  rfl

theorem movesTo_params (params : List Byte) : ∀ (i : Nat) (s : State), params ≠ [] → s.phase = .wParam i →
    s.pidx = appendIndex s.lOp i → ParamsKnown i params s → acceptsBytes params.length s = true →
    movesTo params.length s (s.paramsSent params) := by
  induction params with
  | nil => exact fun _ _ h => absurd rfl h
  | cons b rest ih =>
    intro i s _ hphase hpidx hknown hserve
    have hb : s.knownParam i = some b := by
      have hself : s.setPidx (appendIndex s.lOp i) = s := by rw [← hpidx]; rfl
      have h0 := hknown.2 0 b rfl
      rwa [Nat.add_zero, hself] at h0
    have hdrawn : (s.emitted [b]).paramDrawn i = s.emitted [b] := by
      have hb' : (s.emitted [b]).knownParam i = some b := (State.knownParam_of_fixed rfl rfl i).trans hb
      simp [State.paramDrawn, hb']
    have htick : tick s = .moves ((s.emitted [b]).afterParam i) := by
      simp only [tick, hphase, State.paramByte, hb, Option.getD_some]
      rw [emit_of_accepts hserve, hdrawn]
    have hcount : (s.emitted [b]).paramCount = i + (rest.length + 1) := hknown.1
    refine ⟨_, htick, ?_⟩
    unfold State.afterParam
    cases rest with
    | nil =>
      rw [hcount, if_neg (by simp), State.paramsSent, show s.paramCount = i + 1 from hcount]
      rfl
    | cons b' rest' =>
      rw [hcount, if_pos (by simp)]
      have hmoves := ih (i + 1) (((s.emitted [b]).setPidx (appendIndex s.lOp (i + 1))).goto (.wParam (i + 1)))
        (by simp) rfl rfl (hknown.tail (by simp)) (acceptsBytes_tail hserve (emitted_sendAnswers b s))
      rwa [State.paramsSent_cons] at hmoves

/-! ## The whole packet -/

/-- The state after the five bytes that open a packet (R112). -/
def State.headerSent (s : State) : State :=
  (((((s.setDir .transmit).sentByte Config.marker).sentByte Config.marker).setAcc 0).emitted
    [s.lId, lengthByte s.paramCount, s.cfg.code s.lOp])

theorem State.afterInstr_goto (p : Phase) (s : State) : (s.goto p).afterInstr = s.afterInstr := by
  have hcount : (s.goto p).paramCount = s.paramCount := rfl
  unfold State.afterInstr
  rw [hcount]
  split <;> rfl

section
variable (p q : Phase) (b : Byte) (bytes : List Byte) (s : State)

/-! No send looks at the phase. -/

theorem State.goto_goto : (s.goto p).goto q = s.goto q := rfl
theorem State.goto_sentByte : (s.goto p).sentByte b = (s.sentByte b).goto p := rfl
theorem State.goto_setAcc : (s.goto p).setAcc b = (s.setAcc b).goto p := rfl
theorem State.goto_emitted : (s.goto p).emitted bytes = (s.emitted bytes).goto p := rfl

end

theorem movesTo_header {n : Nat} {s : State} (hp : s.phase = .wDir) (h : acceptsBytes (n + 5) s = true) :
    movesTo 6 s s.headerSent.afterInstr ∧ acceptsBytes n s.headerSent = true := by
  let s1 := (s.setDir .transmit).goto .wMark0
  let s2 := (s1.sentByte Config.marker).goto .wMark1
  let s3 := ((s2.sentByte Config.marker).setAcc 0).goto .wId
  let s4 := (s3.emitted [s3.lId]).goto .wLen
  let s5 := (s4.emitted [lengthByte s4.paramCount]).goto .wInstr
  have f3 : s3.fixed = s.fixed := by simp [s3, s2, s1]
  have f4 : s4.fixed = s.fixed := by simp [s4, f3]
  have f5 : s5.fixed = s.fixed := by simp [s5, f4]
  have h1 : acceptsBytes (n + 5) s1 = true := h
  have h2 : acceptsBytes (n + 4) s2 = true := acceptsBytes_tail h1 rfl
  have h3 : acceptsBytes (n + 3) s3 = true := acceptsBytes_tail h2 rfl
  have h4 : acceptsBytes (n + 2) s4 = true := acceptsBytes_tail h3 (emitted_sendAnswers _ _)
  have h5 : acceptsBytes (n + 1) s5 = true := acceptsBytes_tail h4 (emitted_sendAnswers _ _)
  have hend : s5.emitted [s5.cfg.code s5.lOp] = s.headerSent.goto .wInstr := by
    rw [State.headerSent, State.emitted_cons _ [_, _], State.emitted_cons _ [_], State.cfg_of_fixed f5, State.lOp_of_fixed f5]
    simp only [s5, State.paramCount_of_fixed f4]
    simp only [s4, State.lId_of_fixed f3]
    simp only [s3, s2, s1, State.goto_goto, State.goto_sentByte, State.goto_setAcc, State.goto_emitted]
  have t1 : tick s = .moves s1 := by simp only [tick, hp, s1]
  have t2 : tick s1 = .moves s2 := sendByte_of_accepts h1 Config.marker (State.goto .wMark1)
  have t3 : tick s2 = .moves s3 := sendByte_of_accepts h2 Config.marker fun t => (t.setAcc 0).goto .wId
  have t4 : tick s3 = .moves s4 := emit_of_accepts h3 s3.lId (State.goto .wLen)
  have t5 : tick s4 = .moves s5 := emit_of_accepts h4 (lengthByte s4.paramCount) (State.goto .wInstr)
  have t6 : tick s5 = .moves s.headerSent.afterInstr := by
    rw [← State.afterInstr_goto .wInstr, ← hend]
    exact emit_of_accepts h5 (s5.cfg.code s5.lOp) State.afterInstr
  refine ⟨⟨s1, t1, s2, t2, s3, t3, s4, t4, s5, t5, _, t6, rfl⟩, ?_⟩
  · have h6 : acceptsBytes n (s5.emitted [s5.cfg.code s5.lOp]) = true := acceptsBytes_tail h5 (emitted_sendAnswers _ _)
    rw [hend] at h6
    exact h6

/-- All parameters are sent, if there are any (R113). -/
def State.allSent (params : List Byte) (s : State) : State :=
  { s.emitted params with pidx := pidxAfter s.lOp params.length s.pidx }

theorem movesTo_afterInstr {params : List Byte} {s : State} (hknown : ParamsKnown 0 params s)
    (h : acceptsBytes params.length s = true) : movesTo params.length s.afterInstr ((s.allSent params).goto .wChk) := by
  have hcount : s.paramCount = params.length := by rw [hknown.1, Nat.zero_add]
  unfold State.afterInstr
  rw [hcount]
  cases params with
  | nil => simp [movesTo, State.allSent, pidxAfter, State.emitted_nil]
  | cons b rest =>
    have hmoves := movesTo_params (b :: rest) 0 ((s.setPidx 0).goto (.wParam 0)) (by simp) rfl
      (appendIndex_zero s.lOp).symm hknown h
    have hend : ((s.setPidx 0).goto (.wParam 0)).paramsSent (b :: rest) = (s.allSent (b :: rest)).goto .wChk := by
      rw [State.paramsSent, show ((s.setPidx 0).goto (.wParam 0)).paramCount = (b :: rest).length from hcount]
      rfl
    rw [if_pos (by simp)]
    rwa [hend] at hmoves

theorem State.afterChk_goto (p : Phase) (s : State) : (s.goto p).afterChk = s.afterChk := by
  unfold State.afterChk
  rw [State.goto_lOp, State.goto_lId]
  split <;> rfl

theorem encodeCommand_length (id code : Byte) (params : List Byte) :
    (encodeCommand id code params).length = params.length + 6 := by
  simp [encodeCommand, header, Config.markerCount]

/-- The last byte of a packet is the complement of the sum of those behind the markers (R84, R114). -/
theorem State.sentByte_checksum (params : List Byte) (s : State) (hcount : s.paramCount = params.length) :
    (s.headerSent.allSent params).sentByte (not8 (s.headerSent.allSent params).acc) = s.commandSent params := by
  have hsum : sum8 [s.lId, lengthByte params.length, s.cfg.code s.lOp] + sum8 params =
      sum8 (s.lId :: lengthByte params.length :: s.cfg.code s.lOp :: params) := (sum8_append _ params).symm
  have hlen : 5 + params.length + 1 = params.length + 6 := by omega
  simp [State.headerSent, State.allSent, State.emitted, State.sentByte, State.setDir, State.setAcc, State.log,
    State.commandSent, encodeCommand, header, Config.markerCount, checksum, hcount, hsum, hlen, List.replicate_succ]

/-- A packet the transport accepts byte by byte, from `W_DIR` to the move out of `W_CHK`. -/
theorem movesTo_packet {params : List Byte} {s : State} (hp : s.phase = .wDir) (hknown : ParamsKnown 0 params s)
    (h : acceptsBytes (params.length + 6) s = true) :
    movesTo (params.length + 7) s (s.commandSent params).afterChk := by
  obtain ⟨hheader, haccepts⟩ := movesTo_header (n := params.length + 1) hp h
  have hfix : s.headerSent.fixed = s.fixed := by simp [State.headerSent]
  have hparams := movesTo_afterInstr (hknown.of_fixed hfix) (acceptsBytes_of_le haccepts (Nat.le_succ _))
  have hlast : acceptsBytes 1 ((s.headerSent.allSent params).goto .wChk) = true := acceptsBytes_drop haccepts rfl
  have hchk : tick ((s.headerSent.allSent params).goto .wChk) = .moves (s.commandSent params).afterChk := by
    rw [← State.sentByte_checksum params s (by rw [hknown.1, Nat.zero_add]), ← State.afterChk_goto .wChk]
    exact sendByte_of_accepts hlast _ State.afterChk
  have hall := movesTo_trans hheader (movesTo_trans hparams (movesTo_one hchk))
  rwa [show 6 + (params.length + 1) = params.length + 7 by omega] at hall

end Sys2Proof.Machine
end

section
/-!
SUPPORT. READSTATUS as a run (spec/41_packet_reader.md R130, R142): from the start of the marker scan the ticks lead to the exit
that `parseStatus` says.
-/
namespace Sys2Proof.Machine

/-! ## The polls of a run -/

/-- The registers of `x` after the `k` polls that follow `r` (R56). -/
def State.hearing (r : State) (k : Nat) (x : State) : State :=
  { x with trace := (r.heard k).trace, rxAnswers := (r.heard k).rxAnswers, draws := (r.heard k).draws }

section
variable (r x : State) (k : Nat)

theorem State.hearing_pollByte : (r.hearing k x).pollByte = r.pollAt k := State.pollByte_heard r k

theorem State.hearing_polled : (r.hearing k x).polled = r.hearing (k + 1) x := by
  have hnext : (r.hearing k x).polled = (r.heard k).polled.hearing 0 x := by
    unfold State.hearing
    rw [State.heard_zero]
    rfl
  rw [hnext, State.polled_heard]
  unfold State.hearing
  rw [State.heard_zero]

theorem State.hearing_taken : (r.hearing k x).taken = r.hearing (k + 1) (x.addAcc (r.pollAt k)) := by
  unfold State.taken
  rw [State.hearing_polled, State.hearing_pollByte]
  rfl

end

theorem movesTo_succ {n : Nat} {s t u : State} (h : movesTo n s t) (ht : tick t = .moves u) : movesTo (n + 1) s u :=
  movesTo_trans h (movesTo_one ht)

/-! ## The marker scan -/

/-- The block has made `j` polls of the scan and found no marker (R134). -/
def State.scanning (r : State) (j : Nat) : State := r.hearing j ((r.setScanCnt j).goto .rScan)

/-- One poll of the scan. -/
theorem tick_scanning (r : State) (j : Nat) : tick (r.scanning j) = .moves
    (if r.pollAt j = Config.marker then (r.scanning (j + 1)).goto .rMark2
      else if j + 1 < r.cfg.scanBound then r.scanning (j + 1) else (r.scanning (j + 1)).fail .frameNotFound) := by
  have hpolled : (r.scanning j).polled.setScanCnt ((r.scanning j).scanCnt + 1) = r.scanning (j + 1) := by
    unfold State.scanning
    rw [State.hearing_polled]
    rfl
  have hbyte : (r.scanning j).pollByte = r.pollAt j := State.hearing_pollByte r _ j
  have htick : tick (r.scanning j) = .moves (r.scanning j).scan := rfl
  rw [htick]
  unfold State.scan
  rw [hpolled, hbyte]
  rfl

/-- While no marker comes the scan goes on, within its bound. -/
theorem movesTo_scanning {r : State} {j : Nat} (hj : j < r.cfg.scanBound) (h : ∀ i, i < j → r.pollAt i ≠ Config.marker) :
    movesTo j (r.scanning 0) (r.scanning j) := by
  induction j with
  | zero => rfl
  | succ j ih =>
    have hmoves := ih (by omega) fun i hi => h i (by omega)
    refine movesTo_succ hmoves ?_
    rw [tick_scanning, if_neg (h j (by omega)), if_pos hj]

/-- The scan finds the marker. -/
theorem movesTo_marker {r : State} {k : Nat} (h : markerAt r.cfg.scanBound r.pollAt k) :
    movesTo (k + 1) (r.scanning 0) ((r.scanning (k + 1)).goto .rMark2) := by
  obtain ⟨hk, hbefore, hmark⟩ := h
  refine movesTo_succ (movesTo_scanning hk hbefore) ?_
  rw [tick_scanning, if_pos hmark]

/-- The scan ends at its bound without one. -/
theorem movesTo_noMarker {r : State} (hb : 0 < r.cfg.scanBound)
    (h : ∀ i, i < r.cfg.scanBound → r.pollAt i ≠ Config.marker) :
    movesTo r.cfg.scanBound (r.scanning 0) ((r.scanning r.cfg.scanBound).fail .frameNotFound) := by
  obtain ⟨j, hj⟩ : ∃ j, r.cfg.scanBound = j + 1 := ⟨r.cfg.scanBound - 1, by omega⟩
  have hmoves := movesTo_scanning (r := r) (j := j) (by omega) fun i hi => h i (by omega)
  have hlast := movesTo_succ hmoves (tick_scanning r j)
  rw [if_neg (h j (by omega)), if_neg (by omega)] at hlast
  rwa [hj]

/-! ## The reply behind the marker -/

theorem State.fail_goto (p : Phase) (e : Result) (s : State) : (s.goto p).fail e = s.fail e := rfl
theorem State.accept_goto (p : Phase) (s : State) : (s.goto p).accept = s.accept := rfl

section
variable (r x : State) (c : Nat)

theorem State.hearing_goto_pollByte (p : Phase) : ((r.hearing c x).goto p).pollByte = r.pollAt c :=
  State.hearing_pollByte r x c

theorem State.hearing_goto_polled (p : Phase) : ((r.hearing c x).goto p).polled = (r.hearing (c + 1) x).goto p :=
  State.hearing_polled r (x.goto p) c

theorem State.hearing_goto_taken (p : Phase) :
    ((r.hearing c x).goto p).taken = (r.hearing (c + 1) (x.addAcc (r.pollAt c))).goto p :=
  State.hearing_taken r (x.goto p) c

/-- The second marker, poll `c` (R135). -/
theorem tick_mark2 : tick ((r.hearing c x).goto .rMark2) = .moves
    (if r.pollAt c = Config.marker then (r.hearing (c + 1) (x.setAcc 0)).goto .rId
      else (r.hearing (c + 1) x).fail .frameMalformed) := by
  have htick : tick ((r.hearing c x).goto .rMark2) = .moves ((r.hearing c x).goto .rMark2).mark2 := rfl
  rw [htick, State.mark2, State.hearing_goto_polled, State.hearing_goto_pollByte, State.fail_goto]
  rfl

/-- The id, poll `c` (R136). -/
theorem tick_checkId : tick ((r.hearing c x).goto .rId) = .moves
    (if r.pollAt c ≠ x.lId ∧ x.lId ≠ Config.broadcastId then (r.hearing (c + 1) (x.addAcc (r.pollAt c))).fail .idMismatch
      else (r.hearing (c + 1) (x.addAcc (r.pollAt c))).goto .rLen) := by
  have htick : tick ((r.hearing c x).goto .rId) = .moves ((r.hearing c x).goto .rId).checkId := rfl
  rw [htick, State.checkId, State.hearing_goto_taken, State.hearing_goto_pollByte, State.fail_goto]
  rfl

/-- The length byte, poll `c` (R137). -/
theorem tick_checkLen : tick ((r.hearing c x).goto .rLen) = .moves
    (if (r.pollAt c).toNat ≠ x.expLen + Config.lenOverhead then
        (r.hearing (c + 1) (x.addAcc (r.pollAt c))).fail .lengthMismatch
      else (r.hearing (c + 1) (x.addAcc (r.pollAt c))).goto .rErr) := by
  have htick : tick ((r.hearing c x).goto .rLen) = .moves ((r.hearing c x).goto .rLen).checkLen := rfl
  rw [htick, State.checkLen, State.hearing_goto_taken, State.hearing_goto_pollByte, State.fail_goto]
  rfl

/-- The phase in which parameter `i` of the reply comes next, or its checksum (R172). -/
def replyPhase (n i : Nat) : Phase := if i < n then .rParam i else .rChk

/-- The error byte, poll `c` (R138). -/
theorem tick_stageErr : tick ((r.hearing c x).goto .rErr) = .moves
    ((r.hearing (c + 1) (((x.addAcc (r.pollAt c)).setErrStage (r.pollAt c)).setPidx 0)).goto (replyPhase x.expLen 0)) := by
  have htick : tick ((r.hearing c x).goto .rErr) = .moves ((r.hearing c x).goto .rErr).stageErr := rfl
  rw [htick, State.stageErr, State.hearing_goto_taken, State.hearing_goto_pollByte]
  rfl

/-- One parameter, poll `c` (R139). -/
theorem tick_takeParam (i : Nat) : tick ((r.hearing c x).goto (.rParam i)) = .moves
    ((r.hearing (c + 1) (((x.addAcc (r.pollAt c)).putReply x.pidx (r.pollAt c)).setPidx (x.pidx + 1))).goto
      (replyPhase x.expLen (i + 1))) := by
  have htick : tick ((r.hearing c x).goto (.rParam i)) = .moves (((r.hearing c x).goto (.rParam i)).takeParam i) := rfl
  rw [htick, State.takeParam, State.hearing_goto_taken, State.hearing_goto_pollByte]
  rfl

/-- The checksum, poll `c` (R140, R141). -/
theorem tick_checkSum : tick ((r.hearing c x).goto .rChk) = .moves
    (if r.pollAt c ≠ not8 x.acc then (r.hearing (c + 1) x).fail .checksumMismatch else (r.hearing (c + 1) x).accept) := by
  have htick : tick ((r.hearing c x).goto .rChk) = .moves ((r.hearing c x).goto .rChk).checkSum := rfl
  rw [htick, State.checkSum, State.hearing_goto_polled, State.hearing_goto_pollByte, State.fail_goto, State.accept_goto]
  rfl

end

/-! ## The parameters of the reply -/

/-- The `n` bytes polled from poll `m` on. -/
def State.pollsFrom (r : State) (m n : Nat) : List Byte := (List.range n).map fun j => r.pollAt (m + j)

theorem State.pollsFrom_succ (r : State) (m n : Nat) : r.pollsFrom m (n + 1) = r.pollsFrom m n ++ [r.pollAt (m + n)] := by
  simp [State.pollsFrom, List.range_succ]

theorem State.pollsFrom_cons (r : State) (m n : Nat) : r.pollsFrom m (n + 1) = r.pollAt m :: r.pollsFrom (m + 1) n := by
  simp [State.pollsFrom, List.range_succ_eq_map, Nat.add_assoc, Nat.add_comm 1]

@[simp] theorem State.pollsFrom_length (r : State) (m n : Nat) : (r.pollsFrom m n).length = n := by simp [State.pollsFrom]

/-- The registers once the bytes `bytes` of the reply's parameters are taken (R139). -/
def State.filled (bytes : List Byte) (x : State) : State :=
  { x with acc := x.acc + sum8 bytes, pidx := bytes.length, rxbuf := bytes ++ x.rxbuf.drop bytes.length }

theorem State.filled_nil {x : State} (h : x.pidx = 0) : x.filled [] = x := by
  cases x
  cases h
  simp [State.filled, sum8]

/-- One parameter more (R139). -/
theorem State.filled_snoc (bytes : List Byte) (b : Byte) (x : State) (h : bytes.length < x.rxbuf.length) :
    (((x.filled bytes).addAcc b).putReply (x.filled bytes).pidx b).setPidx ((x.filled bytes).pidx + 1) =
      x.filled (bytes ++ [b]) := by
  have hset : (bytes ++ x.rxbuf.drop bytes.length).set bytes.length b =
      bytes ++ [b] ++ x.rxbuf.drop (bytes.length + 1) := by
    rw [List.set_append_right _ _ (Nat.le_refl _), Nat.sub_self, List.drop_eq_getElem_cons h, List.set_cons_zero,
      List.append_assoc]
    rfl
  simp [State.filled, State.addAcc, State.putReply, State.setPidx, sum8_append, sum8, BitVec.add_assoc, hset]

theorem movesTo_takeParams {r x : State} {m : Nat} (hp : x.pidx = 0) (hfit : x.expLen ≤ x.rxbuf.length) {i : Nat}
    (hi : i ≤ x.expLen) : movesTo i ((r.hearing m x).goto (replyPhase x.expLen 0))
      ((r.hearing (m + i) (x.filled (r.pollsFrom m i))).goto (replyPhase x.expLen i)) := by
  induction i with
  | zero =>
    have hnil : r.pollsFrom m 0 = [] := rfl
    rw [hnil, State.filled_nil hp]
    rfl
  | succ i ih =>
    refine movesTo_succ (ih (by omega)) ?_
    have hphase : replyPhase x.expLen i = .rParam i := if_pos hi
    rw [hphase, tick_takeParam, State.filled_snoc _ _ _ (by simp; omega), State.pollsFrom_succ]
    rfl

/-! ## The verdict -/

theorem firstMarker_eq_some {bound k : Nat} {p : Nat → Byte} : firstMarker bound p = some k ↔ markerAt bound p k := by
  have hfind : firstMarker bound p = some k ↔ _ := List.find?_range_eq_some
  simp only [hfind, markerAt, List.mem_range, beq_iff_eq, Bool.not_eq_eq_eq_not, Bool.not_true, beq_eq_false_iff_ne]
  tauto

theorem firstMarker_eq_none {bound : Nat} {p : Nat → Byte} :
    firstMarker bound p = none ↔ ∀ k, k < bound → p k ≠ Config.marker := by
  simp [firstMarker]

/-- The exits of READSTATUS (R142), from the state in which its scan begins: after as many ticks as `parseStatus` says polls, the
call is over as `State.exitWith` says. -/
def ReachesExit (r : State) (v : Verdict) : Prop :=
  ∃ t, movesTo v.polls (r.scanning 0) t ∧ t.phase = .done ∧ t.deliver = (r.heard v.polls).exitWith v

/-- A check that fails leaves the registers as the verdict says (R207, R209). -/
theorem reachesExit_fail {r : State} {v : Verdict} (hv : v.result ≠ .success)
    (h : movesTo v.polls (r.scanning 0) ((r.hearing v.polls (r.latchedVerdict v)).fail v.result)) : ReachesExit r v := by
  refine ⟨_, h, rfl, ?_⟩
  rw [State.exitWith, if_neg hv]
  rfl

theorem reachesExit_noMarker {r : State} (hb : 0 < r.cfg.scanBound)
    (h : ∀ i, i < r.cfg.scanBound → r.pollAt i ≠ Config.marker) :
    ReachesExit r ⟨.frameNotFound, r.cfg.scanBound, r.cfg.scanBound, []⟩ := by
  refine reachesExit_fail (by simp) ?_
  exact movesTo_noMarker hb h

/-! ## The checks, one after another -/

/-- The registers after the second marker, `c` polls having been made by the scan (R136). -/
def State.marked (r : State) (c : Nat) : State := (r.setScanCnt c).setAcc 0

/-- The registers after the error byte: id, length byte and error byte summed, the last one staged (R136 to R138). -/
def State.staged (r : State) (c : Nat) (id len err : Byte) : State :=
  (((((r.marked c).addAcc id).addAcc len).addAcc err).setErrStage err).setPidx 0

/-- The whole reply has been summed, its parameters stand in RXBUF. -/
theorem State.staged_filled (r : State) (c : Nat) (id len err : Byte) (bytes : List Byte) (e : Result) (polls : Nat) :
    (r.staged c id len err).filled bytes = { r.latchedVerdict ⟨e, polls, c, id :: len :: err :: bytes⟩ with
      rxbuf := bytes ++ r.rxbuf.drop bytes.length } := by
  simp [State.filled, State.staged, State.marked, State.setScanCnt, State.setAcc, State.addAcc, State.setErrStage,
    State.setPidx, State.latchedVerdict, sum8, BitVec.add_assoc]

theorem State.spoilReply_of_fits {s : State} (hfit : s.expLen ≤ s.rxbuf.length) : s.spoilReply =
    { s with rxbuf := freeBytes s.draws s.expLen ++ s.rxbuf.drop s.expLen, draws := s.draws + s.expLen } := by
  rw [State.spoilReply, Nat.min_eq_left hfit]

/-- What stood in the reply's part of RXBUF is gone after a failure (R35). -/
theorem State.spoilReply_overwritten {s : State} {bytes : List Byte} (h : bytes.length = s.expLen)
    (hfit : s.expLen ≤ s.rxbuf.length) :
    ({ s with rxbuf := bytes ++ s.rxbuf.drop bytes.length } : State).spoilReply = s.spoilReply := by
  have hdrop : (bytes ++ s.rxbuf.drop bytes.length).drop s.expLen = s.rxbuf.drop s.expLen := by
    rw [← h, List.drop_left]
  have hlen : s.expLen ≤ (bytes ++ s.rxbuf.drop bytes.length).length := by simp; omega
  rw [State.spoilReply_of_fits hfit, State.spoilReply_of_fits hlen]
  exact congrArg (fun l => ({ s with rxbuf := freeBytes s.draws s.expLen ++ l, draws := s.draws + s.expLen } : State)) hdrop

/-- The bytes of the sum, as they are polled (R142). -/
theorem State.pollsFrom_body (r : State) (k n : Nat) : r.pollsFrom (k + 2) (n + 3) =
    r.pollAt (k + 2) :: r.pollAt (k + 3) :: r.pollAt (k + 4) :: r.pollsFrom (k + 5) n := by
  rw [State.pollsFrom_cons, State.pollsFrom_cons, State.pollsFrom_cons]

section
variable {r : State} {polls c : Nat} {id len err : Byte} {bytes : List Byte} (hn : bytes.length = r.expLen)
include hn

/-- A wrong checksum: the registers are the verdict's, and of the parameters in RXBUF nothing is left (R207). -/
theorem reachesExit_checksumMismatch (hfit : r.expLen ≤ r.rxbuf.length)
    (h : movesTo polls (r.scanning 0)
      ((r.hearing polls ((r.staged c id len err).filled bytes)).fail .checksumMismatch)) :
    ReachesExit r ⟨.checksumMismatch, polls, c, id :: len :: err :: bytes⟩ := by
  refine ⟨_, h, rfl, ?_⟩
  rw [State.exitWith, if_neg (by simp), State.staged_filled r c id len err bytes .checksumMismatch polls]
  rw [← State.spoilReply_overwritten (s := (r.heard polls).latchedVerdict _) hn hfit]
  rfl

/-- The right checksum: the staged error byte goes to `dev.err`, the parameters stand in RXBUF (R141). -/
theorem reachesExit_success
    (h : movesTo polls (r.scanning 0) ((r.hearing polls ((r.staged c id len err).filled bytes)).accept)) :
    ReachesExit r ⟨.success, polls, c, id :: len :: err :: bytes⟩ := by
  refine ⟨_, h, rfl, ?_⟩
  rw [State.exitWith, if_pos rfl, State.staged_filled r c id len err bytes .success polls, hn]
  rfl

end

section
variable {r : State} {k : Nat} (hmark : markerAt r.cfg.scanBound r.pollAt k)
include hmark

theorem reachesExit_malformed (h : r.pollAt (k + 1) ≠ Config.marker) :
    ReachesExit r ⟨.frameMalformed, k + 2, k + 1, []⟩ := by
  have htick := tick_mark2 r (r.setScanCnt (k + 1)) (k + 1)
  rw [if_neg h] at htick
  exact reachesExit_fail (by simp) (movesTo_succ (movesTo_marker hmark) htick)

variable (hmark2 : r.pollAt (k + 1) = Config.marker)
include hmark2

theorem movesTo_id : movesTo (k + 2) (r.scanning 0) ((r.hearing (k + 2) (r.marked (k + 1))).goto .rId) := by
  have htick := tick_mark2 r (r.setScanCnt (k + 1)) (k + 1)
  rw [if_pos hmark2] at htick
  exact movesTo_succ (movesTo_marker hmark) htick

theorem reachesExit_idMismatch (h : r.pollAt (k + 2) ≠ r.lId ∧ r.lId ≠ Config.broadcastId) :
    ReachesExit r ⟨.idMismatch, k + 3, k + 1, [r.pollAt (k + 2)]⟩ := by
  have htick := tick_checkId r (r.marked (k + 1)) (k + 2)
  have hregs : (r.marked (k + 1)).addAcc (r.pollAt (k + 2)) =
      r.latchedVerdict ⟨.idMismatch, k + 3, k + 1, [r.pollAt (k + 2)]⟩ := by
    simp [State.marked, State.setScanCnt, State.setAcc, State.addAcc, State.latchedVerdict, sum8]
  rw [if_pos (by exact h), hregs] at htick
  exact reachesExit_fail (by simp) (movesTo_succ (movesTo_id hmark hmark2) htick)

variable (hid : ¬ (r.pollAt (k + 2) ≠ r.lId ∧ r.lId ≠ Config.broadcastId))
include hid

theorem movesTo_len : movesTo (k + 3) (r.scanning 0)
    ((r.hearing (k + 3) ((r.marked (k + 1)).addAcc (r.pollAt (k + 2)))).goto .rLen) := by
  have htick := tick_checkId r (r.marked (k + 1)) (k + 2)
  rw [if_neg (by exact hid)] at htick
  exact movesTo_succ (movesTo_id hmark hmark2) htick

theorem reachesExit_lengthMismatch (h : (r.pollAt (k + 3)).toNat ≠ r.expLen + Config.lenOverhead) :
    ReachesExit r ⟨.lengthMismatch, k + 4, k + 1, [r.pollAt (k + 2), r.pollAt (k + 3)]⟩ := by
  have htick := tick_checkLen r ((r.marked (k + 1)).addAcc (r.pollAt (k + 2))) (k + 3)
  have hregs : ((r.marked (k + 1)).addAcc (r.pollAt (k + 2))).addAcc (r.pollAt (k + 3)) =
      r.latchedVerdict ⟨.lengthMismatch, k + 4, k + 1, [r.pollAt (k + 2), r.pollAt (k + 3)]⟩ := by
    simp [State.marked, State.setScanCnt, State.setAcc, State.addAcc, State.latchedVerdict, sum8]
  rw [if_pos (by exact h), hregs] at htick
  exact reachesExit_fail (by simp) (movesTo_succ (movesTo_len hmark hmark2 hid) htick)

variable (hlen : (r.pollAt (k + 3)).toNat = r.expLen + Config.lenOverhead) (hfit : r.expLen ≤ r.rxbuf.length)
include hlen hfit

theorem movesTo_chk : movesTo (k + 5 + r.expLen) (r.scanning 0)
    ((r.hearing (k + 5 + r.expLen) ((r.staged (k + 1) (r.pollAt (k + 2)) (r.pollAt (k + 3)) (r.pollAt (k + 4))).filled
      (r.pollsFrom (k + 5) r.expLen))).goto .rChk) := by
  have hlenTick := tick_checkLen r ((r.marked (k + 1)).addAcc (r.pollAt (k + 2))) (k + 3)
  rw [if_neg (by exact not_not.2 hlen)] at hlenTick
  have herr := movesTo_succ (movesTo_succ (movesTo_len hmark hmark2 hid) hlenTick) (tick_stageErr r _ (k + 4))
  have hparams := movesTo_takeParams (r := r) (m := k + 5)
    (x := r.staged (k + 1) (r.pollAt (k + 2)) (r.pollAt (k + 3)) (r.pollAt (k + 4))) rfl hfit (Nat.le_refl _)
  have hphase : replyPhase r.expLen r.expLen = .rChk := if_neg (Nat.lt_irrefl _)
  have hall := movesTo_trans herr hparams
  rw [← hphase]
  exact hall

/-- The verdict of a reply whose checks but the last are passed. -/
theorem reachesExit_body : ReachesExit r
    (if r.pollAt (k + 5 + r.expLen) ≠ checksum (r.pollsFrom (k + 2) (r.expLen + 3)) then
        ⟨.checksumMismatch, k + 6 + r.expLen, k + 1, r.pollsFrom (k + 2) (r.expLen + 3)⟩
      else ⟨.success, k + 6 + r.expLen, k + 1, r.pollsFrom (k + 2) (r.expLen + 3)⟩) := by
  have hpolls : k + 5 + r.expLen + 1 = k + 6 + r.expLen := by omega
  have hmoves := movesTo_succ (movesTo_chk hmark hmark2 hid hlen hfit) (tick_checkSum r _ _)
  have hacc : not8 ((r.staged (k + 1) (r.pollAt (k + 2)) (r.pollAt (k + 3)) (r.pollAt (k + 4))).filled
      (r.pollsFrom (k + 5) r.expLen)).acc = checksum (r.pollsFrom (k + 2) (r.expLen + 3)) := by
    rw [State.staged_filled _ _ _ _ _ _ .success 0, State.pollsFrom_body]
    rfl
  rw [hpolls, hacc] at hmoves
  split
  · rename_i h
    rw [if_pos h] at hmoves
    rw [State.pollsFrom_body]
    exact reachesExit_checksumMismatch (by simp) hfit hmoves
  · rename_i h
    rw [if_neg h] at hmoves
    rw [State.pollsFrom_body]
    exact reachesExit_success (by simp) hmoves

end

theorem reachesExit {r : State} (hb : 0 < r.cfg.scanBound) (hfit : r.expLen ≤ r.rxbuf.length) :
    ReachesExit r (parseStatus r.cfg.scanBound r.lId r.expLen r.pollAt) := by
  unfold parseStatus
  split
  · rename_i hnone
    exact reachesExit_noMarker hb (firstMarker_eq_none.1 hnone)
  · rename_i k hk
    have hmark := firstMarker_eq_some.1 hk
    split
    · rename_i h
      exact reachesExit_malformed hmark h
    · rename_i hmark2
      have hmark2 := not_not.1 hmark2
      split
      · rename_i h
        exact reachesExit_idMismatch hmark hmark2 h
      · rename_i hid
        split
        · rename_i h
          exact reachesExit_lengthMismatch hmark hmark2 hid h
        · rename_i hlen
          exact reachesExit_body hmark hmark2 hid (not_not.1 hlen) hfit

/-- READSTATUS ends within SCAN_BOUND polls of the scan and those of one reply (R241). -/
theorem parseStatus_polls_le (bound : Nat) (e : Byte) (n : Nat) (p : Nat → Byte) :
    (parseStatus bound e n p).polls ≤ bound + n + 5 := by
  unfold parseStatus
  split
  · simp only
    omega
  · rename_i k hk
    obtain ⟨hlt, -, -⟩ := firstMarker_eq_some.1 hk
    dsimp only
    split_ifs <;> dsimp only <;> omega

end Sys2Proof.Machine
end

section
/-!
The call as a function (spec/42_instructions.md R174): where the transport makes it wait nowhere, `exec` answers `State.callDone`.
-/
namespace Sys2Proof.Machine

/-! ## What an accepted call begins with -/

/-- Right after a Write is accepted a data byte is the one in TXBUF (R34). -/
theorem dataByte_acceptedWrite (op : Op) (id address : Byte) (s : State) (k : Nat) :
    ((s.acceptedWrite op id address s.txbuf).setPidx k).dataByte = s.txbuf[k]? := by
  simp [State.dataByte, State.txChanged, State.acceptedWrite]

/-- The latches fix the parameters of the packet, those of a Write from TXBUF (R86). -/
theorem paramsKnown_acceptedAs {i : Instr} {s : State} (ha : admissible i s = true) (hb : bufferInPlace i s = true) :
    ParamsKnown 0 (paramsOf i) (s.acceptedAs i) := by
  obtain ⟨hcmd, hwf, -, -⟩ := admissible_iff.1 ha
  cases i with
  | status => simp [Instr.format] at hcmd
  | ping | action | reset => exact ⟨rfl, fun j b hj => by simp [paramsOf] at hj⟩
  | read id address length =>
    refine ⟨rfl, fun j b hj => ?_⟩
    rcases j with _ | _ | j
    · exact hj
    · exact hj
    · simp [paramsOf] at hj
  | write id address buffer | regWrite id address buffer =>
    simp only [Instr.wellFormed, Bool.and_eq_true] at hwf
    have htx : s.txbuf = buffer := of_decide_eq_true hb
    subst htx
    refine ⟨?_, fun j b hj => ?_⟩
    · simp [State.paramCount, State.acceptedAs, State.acceptedWrite, paramLen, dataCount_toNat hwf.2, paramsOf, Nat.add_comm]
    · rw [Nat.zero_add]
      rcases j with _ | j
      · exact hj
      · exact (dataByte_acceptedWrite _ id address s j).trans hj

/-- TXBUF is as the accepted call found it (R34). -/
theorem watched_acceptedAs {i : Instr} {s : State} (hc : i.format = .cmd) (hb : bufferInPlace i s = true) :
    (s.acceptedAs i).watched = s.acceptedAs i := by
  cases i with
  | status => simp [Instr.format] at hc
  | ping | read | action | reset => exact State.watched_of_plain rfl
  | write id address buffer | regWrite id address buffer =>
    have htx : s.txbuf = buffer := of_decide_eq_true hb
    exact State.watched_of_unchanged (by simp [State.txChanged, State.acceptedAs, State.acceptedWrite, htx])

theorem readsReply_acceptedAs {i : Instr} (hc : i.format = .cmd) (s : State) :
    readsReply i = replyExpected (s.acceptedAs i).lOp (s.acceptedAs i).lId := by
  cases i with
  | status => simp [Instr.format] at hc
  | _ => rfl

theorem packetOf_length {i : Instr} (hc : i.format = .cmd) (c : Params) :
    (packetOf c i).length = (paramsOf i).length + 6 := by
  cases i with
  | status => simp [Instr.format] at hc
  | _ => exact encodeCommand_length _ _ _

/-- Acceptance leaves the transport's answers as they were (R40). -/
theorem answers_acceptedAs (i : Instr) (s : State) :
    (s.acceptedAs i).cfg = s.cfg ∧ (s.acceptedAs i).sendAnswers = s.sendAnswers ∧
      (s.acceptedAs i).busyAnswers = s.busyAnswers := by
  cases i <;> exact ⟨rfl, rfl, rfl⟩

/-! ## The turn of the line -/

/-- The drain fence at its first query, and the switch to receive (R132, R133). -/
theorem movesTo_turnedAround {s : State} (h : drained s = true) :
    movesTo 2 (s.goto .rDrain) (s.turnedAround.scanning 0) := by
  have h := of_decide_eq_true h
  obtain ⟨rest, hrest⟩ : ∃ rest, s.busyAnswers = false :: rest := by
    cases hs : s.busyAnswers with
    | nil => simp [hs] at h
    | cons a rest => simp only [hs, List.head?_cons, Option.some.injEq] at h; exact ⟨rest, by rw [h]⟩
  have hanswer : (s.goto .rDrain).busyAnswer = false := by simp [State.busyAnswer, hrest]
  have hdrain : tick (s.goto .rDrain) = .moves (s.busyAsked.goto .rDir) := by
    simp only [tick, State.goto_phase, hanswer]
    rfl
  have hturned : ((s.busyAsked.setDir .receive).setScanCnt 0).goto .rScan = s.turnedAround.scanning 0 := by
    simp [State.scanning, State.hearing, State.heard_zero, State.turnedAround, State.busyAsked, State.busyAnswer, State.setDir,
      State.log, State.setScanCnt, State.goto, hrest]
  refine ⟨_, hdrain, _, ?_, hturned⟩
  rfl

/-! ## The whole call -/

/-- The sequencer's run of an accepted call is the function's (R174). -/
theorem proceed_eq_callDone {a : State} {params : List Byte} (hcfg : 0 < a.cfg.scanBound) (hp : a.phase = .wDir)
    (hwatch : a.watched = a) (hknown : ParamsKnown 0 params a) (hlegal : latchesLegal a)
    (haccepts : acceptsBytes (params.length + 6) a = true)
    (hdrained : replyExpected a.lOp a.lId = true → drained a = true) : proceed a = a.callDone params := by
  have hpacket := movesTo_packet hp hknown haccepts
  obtain ⟨-, hcount, hreply⟩ := hlegal
  rw [hknown.1, Nat.zero_add, Config.maxParam] at hcount
  unfold State.callDone
  unfold State.afterChk at hpacket
  have hop : (a.commandSent params).lOp = a.lOp := rfl
  have hid : (a.commandSent params).lId = a.lId := rfl
  rw [hop, hid] at hpacket
  split
  · rename_i hexp
    rw [if_pos hexp] at hpacket
    obtain ⟨hmax, hfit⟩ := hreply hexp
    have hturn := movesTo_turnedAround (s := a.commandSent params) (hdrained hexp)
    let r := (a.commandSent params).turnedAround
    obtain ⟨t, hread, hdone, hexit⟩ := reachesExit (r := r) hcfg hfit
    have hrest : tick t = .rests t.deliver := by simp only [tick, hdone]
    have hpolls := parseStatus_polls_le r.cfg.scanBound r.lId r.expLen r.pollAt
    have hexpLen : r.expLen ≤ 253 := hmax
    have hticks : a.ticks = 521 + r.cfg.scanBound := rfl
    have hall := movesTo_trans hpacket (movesTo_trans hturn hread)
    rw [proceed_of_movesTo (by rwa [hwatch]) hrest (by omega), hexit]
    rfl
  · rename_i hexp
    rw [if_neg hexp] at hpacket
    exact proceed_of_movesTo (by rwa [hwatch]) rfl (by simp only [State.ticks, Config.ticksBesideScan]; omega)

/-- The call as a function (R174): admitted and served at once, it comes to `State.callDone`. -/
theorem exec_eq_callDone {i : Instr} {s : State} (hcfg : s.cfg.legal = true) (ha : admissible i s = true)
    (hb : bufferInPlace i s = true) (hs : transportServes i s = true) :
    exec i s = .next ((s.acceptedAs i).callDone (paramsOf i)) := by
  obtain ⟨hcmd, -⟩ := admissible_iff.1 ha
  obtain ⟨hparams, hsend, hbusy⟩ := answers_acceptedAs i s
  simp only [transportServes, Bool.and_eq_true, Bool.or_eq_true, Bool.not_eq_true', packetOf_length hcmd] at hs
  obtain ⟨haccepts, hdrained⟩ := hs
  rw [exec_of_admissible ha]
  refine congrArg _ (proceed_eq_callDone ?_ (acceptedAs_phase hcmd s) (watched_acceptedAs hcmd hb)
    (paramsKnown_acceptedAs ha hb) (latchesLegal_acceptedAs ha) ?_ fun hexp => ?_)
  · rw [hparams]
    exact Params.scanBound_pos hcfg
  · rwa [acceptsBytes, hsend]
  · rw [drained, hbusy]
    rw [← readsReply_acceptedAs hcmd] at hexp
    exact hdrained.resolve_left (by simp [hexp])

end Sys2Proof.Machine
end

section
/-!
When a call succeeds, and what it then leaves (spec/60_exceptions.md R202 to R206, R220; spec/41_packet_reader.md R139, R141).
-/
namespace Sys2Proof.Machine

/-! ## The verdict behind a marker -/

/-- Every check behind the marker at poll `k` passes (R135 to R140). -/
def ChecksPass (e : Byte) (n : Nat) (p : Nat → Byte) (k : Nat) : Prop :=
  p (k + 1) = Config.marker ∧ (p (k + 2) = e ∨ e = Config.broadcastId) ∧ (p (k + 3)).toNat = n + Config.lenOverhead ∧
    p (k + 5 + n) = not8 (sum8 ((List.range (n + 3)).map fun j => p (k + 2 + j)))

/-- Where the scan finds its marker, success is the passing of every check behind it, and then all bytes of the reply but its
markers and checksum are in the sum. -/
theorem parseStatus_of_marker {bound k : Nat} {p : Nat → Byte} (h : markerAt bound p k) (e : Byte) (n : Nat) :
    ((parseStatus bound e n p).result = .success ↔ ChecksPass e n p k) ∧
      ((parseStatus bound e n p).result = .success →
        (parseStatus bound e n p).summed = (List.range (n + 3)).map fun j => p (k + 2 + j)) := by
  unfold parseStatus ChecksPass
  rw [firstMarker_eq_some.2 h]
  dsimp only
  split_ifs with hmark hid hlen hsum
  · simp [hmark]
  · simp [hid]
  · simp [hlen]
  · exact ⟨⟨fun h => by simp at h, fun ⟨_, _, _, h⟩ => absurd h hsum⟩, fun h => by simp at h⟩
  · have hid : p (k + 2) = e ∨ e = Config.broadcastId := by tauto
    exact ⟨⟨fun _ => ⟨not_not.1 hmark, hid, not_not.1 hlen, not_not.1 hsum⟩, fun _ => rfl⟩, fun _ => rfl⟩

theorem parseStatus_success_iff (bound : Nat) (e : Byte) (n : Nat) (p : Nat → Byte) :
    (parseStatus bound e n p).result = .success ↔ ∃ k, markerAt bound p k ∧ ChecksPass e n p k := by
  cases hk : firstMarker bound p with
  | none =>
    have hnone := firstMarker_eq_none.1 hk
    refine ⟨fun h => ?_, fun ⟨k, ⟨hlt, _, hmark⟩, _⟩ => absurd hmark (hnone k hlt)⟩
    simp [parseStatus, hk] at h
  | some k =>
    have hmark := firstMarker_eq_some.1 hk
    refine ⟨fun h => ⟨k, hmark, ((parseStatus_of_marker hmark e n).1).1 h⟩, fun ⟨j, hj, hpass⟩ => ?_⟩
    exact ((parseStatus_of_marker hj e n).1).2 hpass

/-! ## The return of a call -/

theorem State.replyRead_result (r : State) :
    r.replyRead.result = (parseStatus r.cfg.scanBound r.lId r.expLen r.pollAt).result := by
  simp only [State.replyRead, State.exitWith]
  split
  · rename_i h
    exact h.symm
  · rfl

/-- A reply that is accepted gives `dev.err` and RXBUF (R139, R141). -/
theorem State.replyRead_success {r : State} {k : Nat} (hmark : markerAt r.cfg.scanBound r.pollAt k)
    (h : r.replyRead.result = .success) :
    r.replyRead.devErr = r.pollAt (k + 4) ∧
      r.replyRead.rxbuf = r.pollsFrom (k + 5) r.expLen ++ r.rxbuf.drop r.expLen := by
  rw [State.replyRead_result] at h
  have hsum : (parseStatus r.cfg.scanBound r.lId r.expLen r.pollAt).summed = r.pollsFrom (k + 2) (r.expLen + 3) :=
    (parseStatus_of_marker hmark r.lId r.expLen).2 h
  rw [State.pollsFrom_body] at hsum
  simp only [State.replyRead, State.exitWith, if_pos h, hsum]
  exact ⟨rfl, rfl⟩

/-- The reply an accepted call expects (R168). -/
theorem expLen_acceptedAs {i : Instr} (h : readsReply i = true) (s : State) :
    (s.acceptedAs i).expLen = replyLen i ∧ (s.acceptedAs i).lId = targetOf i := by
  cases i with
  | status | action => simp [readsReply, operationOf, replyExpected] at h
  | _ => exact ⟨rfl, rfl⟩

/-- Acceptance and the sending of the packet leave RXBUF and the receiver as they were. -/
theorem receiver_acceptedAs (i : Instr) (s : State) :
    (s.acceptedAs i).rxbuf = s.rxbuf ∧ (s.acceptedAs i).pollAt = s.pollAt := by
  cases i <;> exact ⟨rfl, rfl⟩

/-- Settles O27: the call is `State.callDone` (`exec_eq_callDone`), and READSTATUS succeeds when the parser does
(`parseStatus_success_iff`). -/
theorem successExactly : Obligations.SuccessExactly := by
  intro i s hcfg ha hb hs
  obtain ⟨hcmd, -⟩ := admissible_iff.1 ha
  refine ⟨_, exec_eq_callDone hcfg ha hb hs, ?_⟩
  have hreads := readsReply_acceptedAs hcmd s
  unfold State.callDone
  rw [← hreads]
  cases hr : readsReply i with
  | false => exact ⟨by simp [State.returned], fun k h => by simp at h⟩
  | true =>
    let r := ((s.acceptedAs i).commandSent (paramsOf i)).turnedAround
    obtain ⟨hexp, hid⟩ := expLen_acceptedAs hr s
    obtain ⟨hrx, hpoll⟩ := receiver_acceptedAs i s
    have hbound : r.cfg.scanBound = s.cfg.scanBound := congrArg Params.scanBound (answers_acceptedAs i s).1
    have hexp : r.expLen = replyLen i := hexp
    have hid : r.lId = targetOf i := hid
    have hrx : r.rxbuf = s.rxbuf := hrx
    have hpoll : r.pollAt = s.pollAt := hpoll
    rw [if_pos rfl]
    refine ⟨?_, fun k _ hsucc hmark => ?_⟩
    · rw [State.replyRead_result, parseStatus_success_iff, hbound, hexp, hid, hpoll]
      simp [ChecksPass]
    · rw [← hbound, ← hpoll] at hmark
      obtain ⟨hdev, hbuf⟩ := State.replyRead_success (r := r) hmark hsucc
      rw [hexp, hrx, State.pollsFrom, hpoll] at hbuf
      rw [hpoll] at hdev
      exact ⟨hdev, hbuf⟩

end Sys2Proof.Machine
end

section
/-!
Half duplex and the drain fence (spec/20_memory.md R65, R66, R67): the trace of a call grows as the phase says.
-/
namespace Sys2Proof.Machine

/-! ## How a trace grows -/

theorem Sending.tx {t : List Event} (h : Sending t) (b : Byte) : Sending (t ++ [.tx b]) := by
  obtain ⟨tx, rfl⟩ := h
  exact ⟨tx ++ [b], by simp⟩

/-- Before the first query of the drain wait all that stands on the trace are the sends. -/
theorem Sending.draining {t : List Event} (h : Sending t) : Draining t := by
  obtain ⟨tx, rfl⟩ := h
  exact ⟨tx, 0, by simp⟩

theorem Draining.busy {t : List Event} (h : Draining t) : Draining (t ++ [.busy true]) := by
  obtain ⟨tx, j, rfl⟩ := h
  exact ⟨tx, j + 1, by rw [List.replicate_succ', List.append_assoc]⟩

theorem Draining.turning {t : List Event} (h : Draining t) : Turning (t ++ [.busy false]) := ⟨t, h, rfl⟩

theorem Turning.listening {t : List Event} (h : Turning t) : Listening (t ++ [.dir .receive]) := ⟨t, [], h, rfl⟩

theorem Listening.rx {t : List Event} (h : Listening t) (b : Byte) : Listening (t ++ [.rx b]) := by
  obtain ⟨u, rx, hu, rfl⟩ := h
  exact ⟨u, rx ++ [b], hu, by simp⟩

theorem Sending.halfDuplex {t : List Event} (h : Sending t) : HalfDuplex t := .inr (.inl h.draining)
theorem Draining.halfDuplex {t : List Event} (h : Draining t) : HalfDuplex t := .inr (.inl h)
theorem Turning.halfDuplex {t : List Event} (h : Turning t) : HalfDuplex t := .inr (.inr (.inl h))
theorem Listening.halfDuplex {t : List Event} (h : Listening t) : HalfDuplex t := .inr (.inr (.inr h))

/-! ## What the phase asks of the trace -/

/-- The invariant rests on the phase and the trace alone. -/
theorem traceInv_congr {s t : State} (hp : t.phase = s.phase) (ht : t.trace = s.trace) (h : TraceInv s) : TraceInv t := by
  simpa only [TraceInv, hp, ht] using h

theorem traceInv_of_idle {s : State} (hp : s.phase = .idle) (h : HalfDuplex s.trace) : TraceInv s := by
  simpa only [TraceInv, hp] using h

/-- In each phase of the writer that sends, and right after it where no reply is read, the trace is the writer's (R115). -/
theorem traceInv_of_sending {s : State} (hp : (s.phase.writes = true ∧ s.phase ≠ .wDir) ∨ s.phase = .done)
    (h : Sending s.trace) : TraceInv s := by
  cases hs : s.phase <;> simp [hs, Phase.writes] at hp <;> simp only [TraceInv, hs]
  case done => exact .inl h
  all_goals exact h

/-- The phases of READSTATUS behind the switch to receive (R134 to R140). -/
def Phase.polls : Phase → Bool
  | .rScan | .rMark2 | .rId | .rLen | .rErr | .rParam _ | .rChk => true
  | _ => false

/-- Behind the switch to receive, up to the end of the call, there are only polls (R66). -/
theorem traceInv_of_listening {s : State} (hp : s.phase.polls = true ∨ s.phase = .done) (h : Listening s.trace) :
    TraceInv s := by
  cases hs : s.phase <;> simp [hs, Phase.polls] at hp <;> simp only [TraceInv, hs]
  case done => exact .inr h
  all_goals exact h

/-- Wherever a call is broken off its trace is half-duplex. -/
theorem TraceInv.halfDuplex {s : State} (h : TraceInv s) : HalfDuplex s.trace := by
  cases hp : s.phase <;> simp only [TraceInv, hp] at h
  case idle => exact h
  case wDir => exact .inl h
  case wMark0 | wMark1 | wId | wLen | wInstr | wParam | wChk => exact h.halfDuplex
  case rDrain => exact h.halfDuplex
  case rDir => exact h.halfDuplex
  case rScan | rMark2 | rId | rLen | rErr | rParam | rChk => exact h.halfDuplex
  case done => exact h.elim Sending.halfDuplex Listening.halfDuplex

/-! ## A tick that rests -/

/-- Each phase of the writer but `W_DIR` is one send (R172). -/
theorem tick_eq_sendByte {s : State} (hw : s.phase.writes = true) (hd : s.phase ≠ .wDir) :
    ∃ b k, tick s = sendByte b k s := by
  cases hp : s.phase <;> simp only [tick, hp]
  case wDir => exact absurd hp hd
  case wMark0 | wMark1 | wId | wLen | wInstr | wParam | wChk => exact ⟨_, _, rfl⟩
  all_goals simp [hp, Phase.writes] at hw

/-- A send that does not move was refused (R54). -/
theorem sendByte_rests {b : Byte} {k : State → State} {s t : State} (h : sendByte b k s = .rests t) :
    s.sendReady = false ∧ t = s.sendAsked := by
  obtain ⟨h', -⟩ | ⟨h', hr⟩ := sendByte_cases b k s <;> rw [h'] at h <;> cases h
  exact ⟨hr, rfl⟩

/-- Where the block rests (R27, R54, R55): idle, at a refused send, in the drain wait, or at the return of a call. -/
theorem rests_cases {s t : State} (h : tick s = .rests t) :
    (s.phase = .idle ∧ t = s) ∨
    (s.phase.writes = true ∧ s.phase ≠ .wDir ∧ s.sendReady = false ∧ t = s.sendAsked) ∨
    (s.phase = .rDrain ∧ s.busyAnswer = true ∧ t = s.busyAsked) ∨
    (s.phase = .done ∧ t = s.deliver) := by
  cases hp : s.phase <;> simp only [tick, hp] at h
  case idle => cases h; exact .inl ⟨rfl, rfl⟩
  case wMark0 | wMark1 | wId | wLen | wInstr | wParam | wChk =>
    exact .inr (.inl ⟨rfl, by simp, sendByte_rests h⟩)
  case rDrain =>
    split at h
    · rename_i hb
      cases h
      exact .inr (.inr (.inl ⟨rfl, hb, rfl⟩))
    · cases h
  case done => cases h; exact .inr (.inr (.inr ⟨rfl, rfl⟩))
  all_goals cases h

/-! ## Every step -/

/-- A tick that moves adds its one event (`oneOperationPerPhase`) and goes to the phase that asks for it (`phaseTransitions`). -/
theorem traceInv_moves {s t : State} (h : TraceInv s) (ht : tick s = .moves t) : TraceInv t := by
  have htrace := oneOperationPerPhase s t ht
  obtain ⟨hphase, -⟩ := phaseTransitions s t ht
  cases hp : s.phase <;> simp only [TraceInv, hp] at h <;> simp only [hp] at htrace hphase
  case idle | done => simp [tick, hp] at ht
  case wDir => exact traceInv_of_sending (by simp [hphase, Phase.writes]) (htrace ▸ ⟨[], by simp [h]⟩)
  case wMark0 | wMark1 | wId | wLen =>
    exact traceInv_of_sending (.inl (by simp [hphase, Phase.writes])) (htrace ▸ h.tx _)
  case wInstr | wParam =>
    refine traceInv_of_sending (.inl ?_) (htrace ▸ h.tx _)
    rw [hphase]
    split_ifs <;> simp [Phase.writes]
  case wChk =>
    have hsent : Sending t.trace := htrace ▸ h.tx _
    split_ifs at hphase
    · simpa only [TraceInv, hphase] using hsent.draining
    · exact traceInv_of_sending (.inr hphase) hsent
  case rDrain => simpa only [TraceInv, hphase, htrace] using h.turning
  case rDir => exact traceInv_of_listening (.inl (by simp [hphase, Phase.polls])) (htrace ▸ h.listening)
  case rChk => exact traceInv_of_listening (.inr hphase) (htrace ▸ h.rx _)
  case rScan | rMark2 | rId | rLen | rErr | rParam =>
    refine traceInv_of_listening ?_ (htrace ▸ h.rx _)
    rw [hphase]
    split_ifs <;> simp [Phase.polls]

/-- Where the block rests nothing is added but a busy answer. -/
theorem traceInv_rests {s t : State} (h : TraceInv s) (ht : tick s = .rests t) : TraceInv t := by
  obtain ⟨-, rfl⟩ | ⟨-, -, -, rfl⟩ | ⟨hp, hb, rfl⟩ | ⟨-, rfl⟩ := rests_cases ht
  · exact h
  · exact traceInv_congr rfl rfl h
  · simp only [TraceInv, hp] at h
    simpa only [TraceInv, State.busyAsked_phase, State.busyAsked_trace, hp, hb] using h.busy
  · exact traceInv_of_idle rfl h.halfDuplex

theorem traceInv_tick (s : State) (h : TraceInv s) : TraceInv (tick s).state := by
  cases ht : tick s with
  | moves t => exact traceInv_moves h ht
  | rests t => exact traceInv_rests h ht

theorem traceInv_proceed {s : State} (h : TraceInv s) : TraceInv (proceed s) :=
  proceed_keeps (P := TraceInv) (fun _ => traceInv_congr rfl rfl) traceInv_tick s h

/-- A call that is accepted starts an empty trace (log 24). -/
theorem traceInv_acceptedAs {i : Instr} {s : State} (h : TraceInv s) : TraceInv (s.acceptedAs i) := by
  cases i with
  | status => exact h
  | _ => exact (rfl : ([] : List Event) = [])

theorem traceInv_exec {i : Instr} {s t : State} (h : TraceInv s) (he : exec i s = .next t) : TraceInv t := by
  obtain ⟨-, rfl⟩ | ⟨id, len, err, params, chk, -, rfl⟩ := exec_cases he
  · exact traceInv_proceed (traceInv_acceptedAs h)
  · exact traceInv_proceed (traceInv_congr rfl rfl h)

/-- Settles O51: every tick keeps the form (`traceInv_tick`), an accepted call starts with an empty trace, and the reset event
leaves the trace of the call it breaks off, half-duplex as it is (`TraceInv.halfDuplex`). -/
theorem traceInvKept : Obligations.TraceInvKept := by
  intro s t h hstep
  obtain ⟨-, rfl⟩ | ⟨-, -, i, -, he⟩ | ⟨-, -, rfl⟩ := step_cases hstep
  · exact traceInv_of_idle rfl h.halfDuplex
  · exact traceInv_exec (s := s.takeRequest) (traceInv_congr rfl rfl h) he
  · exact traceInv_proceed h

end Sys2Proof.Machine
end

section
/-!
Waiting for the transport (spec/20_memory.md R54, R67; spec/40_packet_writer.md R116; spec/41_packet_reader.md R132, R133): a step
that begins where a call waits.
-/
namespace Sys2Proof.Machine

/-- A step with nothing presented that comes to rest after `k` moves ends there (log 1). -/
theorem step_of_movesTo {k : Nat} {s t u : State} (hr : s.resetReq = false) (hp : s.presented = false)
    (h : movesTo k s.watched t) (hrest : tick t = .rests u) (hk : k < s.ticks) : step s = .next u := by
  rw [(stepRunsFetchedCall (.ping 0) s hr).2 hp, proceed_of_movesTo h hrest hk]

theorem State.ticks_pos (s : State) : 0 < s.ticks := Nat.add_pos_left (by decide) _

/-- A send the transport refuses leaves the block where it is (R54, R116). -/
theorem tick_of_refused {s : State} {rest : List Bool} (h : s.sendAnswers = false :: rest)
    (hw : s.phase.writes = true) (hd : s.phase ≠ .wDir) : tick s = .rests { s with sendAnswers := rest } := by
  obtain ⟨b, k, hsend⟩ := tick_eq_sendByte hw hd
  rw [hsend, sendByte_waits h]

/-- Settles O45: the step's first tick is the refused send (`tick_of_refused`). -/
theorem sendWaits : Obligations.SendWaits := fun s _ hr hp h hw hd =>
  step_of_movesTo (k := 0) hr hp rfl (tick_of_refused (s := s.watched) h hw hd) s.ticks_pos

/-- A busy answer leaves the block in the drain wait (R132). -/
theorem tick_of_busy {s : State} {rest : List Bool} (hp : s.phase = .rDrain) (h : s.busyAnswers = true :: rest) :
    tick s = .rests { s with trace := s.trace ++ [.busy true], busyAnswers := rest } := by
  simp [tick, hp, State.busyAnswer, State.busyAsked, State.log, h]

/-- From the drain wait a transport that is not busy lets READSTATUS run to the return of the call (R130, R133, R142). -/
theorem step_of_drained {s : State} (hcfg : s.cfg.legal = true) (hr : s.resetReq = false) (hpres : s.presented = false)
    (hp : s.phase = .rDrain) (h : drained s = true) (hfit : s.expLen ≤ s.rxbuf.length) :
    step s = .next s.turnedAround.replyRead := by
  have hstart : s.watched = s.goto .rDrain := by
    rw [State.watched_of_reader (by simp [hp, Phase.writes]), ← hp]
    rfl
  obtain ⟨t, hread, hdone, hexit⟩ := reachesExit (r := s.turnedAround) (Params.scanBound_pos hcfg) hfit
  have hrest : tick t = .rests s.turnedAround.replyRead := by
    simp only [tick, hdone, hexit]
    rfl
  have hmoves := movesTo_trans (movesTo_turnedAround h) hread
  rw [← hstart] at hmoves
  refine step_of_movesTo hr hpres hmoves hrest ?_
  have hpolls := parseStatus_polls_le s.cfg.scanBound s.lId s.expLen s.turnedAround.pollAt
  have hexpLen : s.expLen < 256 := s.lExpLen.isLt
  have hticks : s.ticks = 521 + s.cfg.scanBound := rfl
  exact Nat.lt_of_le_of_lt (Nat.add_le_add_left hpolls 2) (by omega)

/-- Settles O46: the step's first tick is the query; answered busy it rests (`tick_of_busy`), else the reply is read
(`step_of_drained`). -/
theorem drainWait : Obligations.DrainWait := by
  intro s rest hcfg hr hpres hp
  refine ⟨fun h => ?_, fun h hfit => ?_⟩
  · have hwatch : s.watched = s := State.watched_of_reader (by simp [hp, Phase.writes])
    exact step_of_movesTo (k := 0) hr hpres hwatch (tick_of_busy hp h) s.ticks_pos
  · exact step_of_drained hcfg hr hpres hp (by simp [drained, h]) hfit

end Sys2Proof.Machine
end

section
/-!
Decoder and encoder as inverses of each other (spec/30_encoding.md R81 to R87, R93): each part of the decoder is characterised by
what it accepts (`decodeCall_eq_ok_iff` up to `decodeCmd_eq_ok_iff`, `decodeSts_eq_ok_iff`), and both directions are read off.
-/
namespace Sys2Proof.Machine

/-! ## Calls and their parameters -/

/-- The call of an operation, with the operands it has (R86). -/
def callOf (o : Op) (id address length : Byte) (buffer : List Byte) : Instr :=
  match o with
  | .ping => .ping id
  | .read => .read id address length
  | .write => .write id address buffer
  | .regWrite => .regWrite id address buffer
  | .action => .action id
  | .reset => .reset id

/-- A call record decodes to the call of the operation its byte selects, when that call is legal (R33, R94). -/
theorem decodeCall_eq_ok_iff {c : Params} {op id address length : Byte} {buffer : List Byte} {i : Instr} :
    decodeCall c op id address length buffer = .ok i ↔
      i.wellFormed = true ∧ ∃ o, opOf c op = some o ∧ callOf o id address length buffer = i := by
  unfold decodeCall
  cases opOf c op with
  | none => simp
  | some o =>
    simp only [Option.some.injEq, exists_eq_left']
    split
    · rename_i hid
      refine iff_of_false (by simp) ?_
      rintro ⟨hwf, rfl⟩
      cases o <;> simp [callOf, Instr.wellFormed, hid] at hwf
    · rename_i hid
      have hid : idLegal id = true := Bool.eq_true_of_not_eq_false hid
      constructor
      · intro h
        cases o with
        | ping | action | reset =>
          cases h
          exact ⟨hid, rfl⟩
        | read | write | regWrite =>
          dsimp only at h
          split at h
          · rename_i hlegal
            cases h
            exact ⟨by simp [Instr.wellFormed, hid, hlegal], rfl⟩
          · cases h
      · rintro ⟨hwf, rfl⟩
        cases o <;> simp_all [callOf, Instr.wellFormed]

@[simp] theorem operationOf_callOf (o : Op) (id address length : Byte) (buffer : List Byte) :
    operationOf (callOf o id address length buffer) = some o := by cases o <;> rfl

@[simp] theorem targetOf_callOf (o : Op) (id address length : Byte) (buffer : List Byte) :
    targetOf (callOf o id address length buffer) = id := by cases o <;> rfl

/-- Every instruction that has an operation is that operation's call. -/
theorem exists_callOf {i : Instr} {o : Op} (h : operationOf i = some o) :
    ∃ address length buffer, callOf o (targetOf i) address length buffer = i := by
  cases i with
  | ping | action | reset => cases h; exact ⟨0, 0, [], rfl⟩
  | read _ address length => cases h; exact ⟨address, length, [], rfl⟩
  | write _ address buffer | regWrite _ address buffer => cases h; exact ⟨address, 0, buffer, rfl⟩
  | status => cases h

/-- The parameters of a call decode as its record does (R86). -/
theorem decodeParams_paramsOf {c : Params} {op : Byte} {o : Op} (ho : opOf c op = some o) (id address length : Byte)
    (buffer : List Byte) : decodeParams c op id (paramsOf (callOf o id address length buffer)) =
      decodeCall c op id address length buffer := by
  unfold decodeParams decodeCall
  rw [ho]
  cases o <;> rfl

/-- Parameters are those of a call of their operation, or there are too many or too few of them (R87). -/
theorem decodeParams_cases {c : Params} {op : Byte} {o : Op} (ho : opOf c op = some o) (id : Byte) (params : List Byte) :
    (∃ address length buffer, paramsOf (callOf o id address length buffer) = params) ∨
      decodeParams c op id params = .error .badLength := by
  unfold decodeParams
  rw [ho]
  cases o with
  | ping | action | reset =>
    cases params with
    | nil => exact .inl ⟨0, 0, [], rfl⟩
    | cons => exact .inr rfl
  | read =>
    match params with
    | [address, length] => exact .inl ⟨address, length, [], rfl⟩
    | [] | [_] | _ :: _ :: _ :: _ => exact .inr rfl
  | write | regWrite =>
    cases params with
    | nil => exact .inr rfl
    | cons address buffer => exact .inl ⟨address, 0, buffer, rfl⟩

theorem decodeParams_of_unknown {c : Params} {op : Byte} (ho : opOf c op = none) (id : Byte) (params : List Byte) :
    decodeParams c op id params = .error (.unknownOperation op) := by
  unfold decodeParams
  rw [ho]

/-- Parameters in wire order decode to the legal call whose parameters they are (R86, R87). -/
theorem decodeParams_eq_ok_iff {c : Params} {op id : Byte} {params : List Byte} {i : Instr} :
    decodeParams c op id params = .ok i ↔ i.wellFormed = true ∧ ∃ o, opOf c op = some o ∧
      operationOf i = some o ∧ targetOf i = id ∧ paramsOf i = params := by
  cases ho : opOf c op with
  | none => simp [decodeParams_of_unknown ho]
  | some o =>
    constructor
    · intro h
      obtain ⟨address, length, buffer, rfl⟩ | herr := decodeParams_cases ho id params
      · rw [decodeParams_paramsOf ho, decodeCall_eq_ok_iff, ho] at h
        obtain ⟨hwf, _, ⟨⟩, rfl⟩ := h
        exact ⟨hwf, o, rfl, by simp, by simp, rfl⟩
      · cases herr.symm.trans h
    · rintro ⟨hwf, _, ⟨⟩, hop, rfl, rfl⟩
      obtain ⟨address, length, buffer, hcall⟩ := exists_callOf hop
      have hdecode := decodeParams_paramsOf ho (targetOf i) address length buffer
      rw [hcall] at hdecode
      exact hdecode.trans (decodeCall_eq_ok_iff.2 ⟨hwf, o, ho, hcall⟩)

/-! ## Whole packets -/

theorem header_eq (id len fifth : Byte) : header id len fifth = [Config.marker, Config.marker, id, len, fifth] := rfl

/-- A header and its parameters decode when the length byte counts the parameters and they decode (R81, R83). -/
theorem decodeCmd_eq_ok_iff {c : Params} {bytes rest : List Byte} {i : Instr} :
    decodeCmd c bytes = .ok (i, rest) ↔ ∃ id len op params, bytes = header id len op ++ params ++ rest ∧
      len.toNat = params.length + Config.lenOverhead ∧ decodeParams c op id params = .ok i := by
  constructor
  · intro h
    unfold decodeCmd at h
    split at h
    · rename_i m0 m1 id len op tail
      split_ifs at h with hmark hop hlen htail
      obtain ⟨rfl, rfl⟩ : m0 = Config.marker ∧ m1 = Config.marker := by simpa using hmark
      cases hdecode : decodeParams c op id (tail.take (len.toNat - Config.lenOverhead)) with
      | error e => simp [hdecode, Except.map] at h
      | ok j =>
        simp only [hdecode, Except.map, Except.ok.injEq, Prod.mk.injEq] at h
        obtain ⟨rfl, rfl⟩ := h
        refine ⟨id, len, op, _, by simp [header_eq], ?_, hdecode⟩
        rw [List.length_take] at htail ⊢
        omega
    · cases h
  · rintro ⟨id, len, op, params, rfl, hlen, hdecode⟩
    obtain ⟨-, o, ho, -⟩ := decodeParams_eq_ok_iff.1 hdecode
    have hcount : len.toNat - Config.lenOverhead = params.length := by omega
    have hlen : ¬ len.toNat < Config.lenOverhead := by omega
    simp [header_eq, decodeCmd, ho, hlen, hcount, hdecode, Except.map]

/-- A command is its header and its parameters (R81). -/
theorem encode_of_operation {c : Params} {i : Instr} {o : Op} (h : operationOf i = some o) :
    encode c i = header (targetOf i) (lengthByte (paramsOf i).length) (c.code o) ++ paramsOf i := by
  cases i <;> cases h <;> rfl

/-- A legal call has at most MAX_PARAM parameters (R33, D10). -/
theorem paramsOf_length_le {i : Instr} {o : Op} (h : operationOf i = some o) (hwf : i.wellFormed = true) :
    (paramsOf i).length ≤ Config.maxParam := by
  cases i with
  | status => cases h
  | ping | action | reset | read => simp [paramsOf, Config.maxParam]
  | write | regWrite =>
    simp only [Instr.wellFormed, Bool.and_eq_true] at hwf
    exact of_decide_eq_true hwf.2

theorem eq_lengthByte {len : Byte} {n : Nat} (h : len.toNat = n + Config.lenOverhead) : len = lengthByte n := by
  rw [lengthByte, ← h, BitVec.ofNat_toNat, BitVec.setWidth_eq]

/-- The command decoder accepts what the encoder writes of a legal call whose code selects its operation, and nothing else. -/
theorem decodeCmd_eq_ok_iff_encode {c : Params} {bytes rest : List Byte} {i : Instr} :
    decodeCmd c bytes = .ok (i, rest) ↔ i.wellFormed = true ∧ bytes = encode c i ++ rest ∧
      ∃ o, operationOf i = some o ∧ opOf c (c.code o) = some o := by
  rw [decodeCmd_eq_ok_iff]
  constructor
  · rintro ⟨id, len, op, params, rfl, hlen, hdecode⟩
    obtain ⟨hwf, o, ho, hop, rfl, rfl⟩ := decodeParams_eq_ok_iff.1 hdecode
    obtain rfl := code_of_opOf ho
    rw [encode_of_operation hop, eq_lengthByte hlen]
    exact ⟨hwf, rfl, o, hop, ho⟩
  · rintro ⟨hwf, rfl, o, hop, ho⟩
    rw [encode_of_operation hop]
    exact ⟨_, _, _, _, rfl, Laws.Wire.lengthByte_toNat (paramsOf_length_le hop hwf),
      decodeParams_eq_ok_iff.2 ⟨hwf, o, ho, hop, rfl, rfl⟩⟩

/-- The status decoder accepts what the encoder writes of a well-formed status packet, and nothing else (R82). -/
theorem decodeSts_eq_ok_iff_encode {c : Params} {bytes rest : List Byte} {i : Instr} :
    decodeSts bytes = .ok (i, rest) ↔ i.wellFormed = true ∧ bytes = encode c i ++ rest ∧ i.format = .sts := by
  constructor
  · intro h
    unfold decodeSts at h
    split at h
    · rename_i m0 m1 id len err tail
      split_ifs at h with hmark
      obtain ⟨rfl, rfl⟩ : m0 = Config.marker ∧ m1 = Config.marker := by simpa using hmark
      split at h
      · rename_i chk tail' hdrop
        cases h
        have hlen := congrArg List.length hdrop
        rw [List.length_drop, List.length_cons] at hlen
        refine ⟨decide_eq_true ?_, ?_, rfl⟩
        · rw [List.length_take]
          omega
        · simp [encode, header_eq, ← hdrop]
      · cases h
    · cases h
  · rintro ⟨hwf, rfl, hf⟩
    cases i with
    | status id len err params chk =>
      have hlen : params.length = len.toNat - Config.lenOverhead := of_decide_eq_true hwf
      simp [encode, header_eq, decodeSts, ← hlen]
    | _ => cases hf

theorem exists_operation_of_cmd {i : Instr} (h : i.format = .cmd) : ∃ o, operationOf i = some o := by
  cases i with
  | status => cases h
  | _ => exact ⟨_, rfl⟩

theorem format_of_operation {i : Instr} {o : Op} (h : operationOf i = some o) : i.format = .cmd := by
  cases i with
  | status => cases h
  | _ => rfl

/-- Settles O1: what each decoder accepts (`decodeCmd_eq_ok_iff_encode`, `decodeSts_eq_ok_iff_encode`), distinct codes selecting
each its own operation (`opOf_code`). -/
theorem decodeEncode : Obligations.DecodeEncode := by
  intro c i rest hc hwf
  cases hf : i.format with
  | cmd =>
    obtain ⟨o, ho⟩ := exists_operation_of_cmd hf
    exact decodeCmd_eq_ok_iff_encode.2 ⟨hwf, rfl, o, ho, opOf_code hc o⟩
  | sts => exact decodeSts_eq_ok_iff_encode.2 ⟨hwf, rfl, hf⟩

/-- Settles O2: the same two equivalences, read from left to right. -/
theorem encodeDecode : Obligations.EncodeDecode := by
  intro c f bytes rest i h
  cases f with
  | cmd =>
    obtain ⟨hwf, hbytes, o, ho, -⟩ := decodeCmd_eq_ok_iff_encode.1 h
    exact ⟨format_of_operation ho, hwf, hbytes⟩
  | sts =>
    obtain ⟨hwf, hbytes, hf⟩ := decodeSts_eq_ok_iff_encode.1 h
    exact ⟨hf, hwf, hbytes⟩

/-- Settles O5: each word is what the encoder writes of its instruction (`decodeEncode`). -/
theorem specWordsDecode : Obligations.SpecWordsDecode :=
  ⟨decodeEncode Config.params (.ping 1) [0xFB] rfl rfl,
    decodeEncode Config.params (.read 1 36 2) [0xD2] rfl rfl,
    decodeEncode Config.params (.write 1 30 [0x00, 0x02]) [0xD6] rfl rfl,
    decodeEncode Config.params (.regWrite 1 30 [0x00, 0x02]) [0xD5] rfl rfl,
    decodeEncode Config.params (.action 1) [0xF7] rfl rfl,
    decodeEncode Config.params (.reset 1) [0xF6] rfl rfl,
    decodeEncode Config.params (.status 1 4 0 [0x10, 0x00] 0xEA) [] rfl rfl⟩

end Sys2Proof.Machine
end

section
/-!
The opcode table (spec/30_encoding.md R87, R88): its CMD rows are apart, and an encoded instruction selects its own row.
-/
namespace Sys2Proof.Machine

/-- Two rows one header selects agree wherever both look (R88). -/
theorem Row.selects_agree {r q : Row} {h : BitVec 40} (hr : r.selects h = true) (hq : q.selects h = true) :
    r.pattern &&& q.mask = q.pattern &&& r.mask := by
  have hr : h &&& r.mask = r.pattern := eq_of_beq hr
  have hq : h &&& q.mask = q.pattern := eq_of_beq hq
  rw [← hr, ← hq, BitVec.and_assoc, BitVec.and_assoc, BitVec.and_comm r.mask]

/-- Settles O3: two rows one header selects agree where both look (`Row.selects_agree`), and no two CMD rows of the table do. -/
theorem commandRowsDisjoint : Obligations.CommandRowsDisjoint := by
  have hapart : ∀ r ∈ tableRows, ∀ q ∈ tableRows, r.format = .cmd → q.format = .cmd →
      r.pattern &&& q.mask = q.pattern &&& r.mask → r = q := by decide
  exact fun _ r q hr hq hfr hfq hsr hsq => hapart r hr q hq hfr hfq (Row.selects_agree hsr hsq)

/-- A row that looks at both markers, not at the id, is selected by a header whose length byte and fifth byte it finds under its
mask (R88). -/
theorem selects_header {r : Row} {len fifth lenMask fifthMask lenBits fifthBits : Byte}
    (hmask : r.mask = 0xFF#8 ++ 0xFF#8 ++ 0#8 ++ lenMask ++ fifthMask)
    (hpattern : r.pattern = 0xFF#8 ++ 0xFF#8 ++ 0#8 ++ lenBits ++ fifthBits) (hlen : len &&& lenMask = lenBits)
    (hfifth : fifth &&& fifthMask = fifthBits) (id : Byte) (rest : List Byte) :
    r.selects (headerWord (header id len fifth ++ rest)) = true := by
  have hword : headerWord (header id len fifth ++ rest) = 0xFF#8 ++ 0xFF#8 ++ id ++ len ++ fifth := rfl
  refine beq_iff_eq.2 ?_
  rw [hword, hmask, hpattern, BitVec.and_append, BitVec.and_append, BitVec.and_append, hlen, hfifth, BitVec.and_zero]
  rfl

/-- Settles O4: each instruction's row looks at the markers and at bytes the encoder fixes (`selects_header`). -/
theorem encodedHeaderSelectsItsRow : Obligations.EncodedHeaderSelectsItsRow := by
  intro i _
  cases i with
  | ping id =>
    exact ⟨tableRows[0], by decide, rfl, rfl, selects_header (lenMask := 0xFF) (fifthMask := 0xFF) rfl rfl rfl rfl id []⟩
  | read id address length =>
    exact ⟨tableRows[1], by decide, rfl, rfl, selects_header (lenMask := 0xFF) (fifthMask := 0xFF) rfl rfl rfl rfl id _⟩
  | write id address buffer =>
    exact ⟨tableRows[2], by decide, rfl, rfl, selects_header (fifthMask := 0xFF) rfl rfl BitVec.and_zero rfl id _⟩
  | regWrite id address buffer =>
    exact ⟨tableRows[3], by decide, rfl, rfl, selects_header (fifthMask := 0xFF) rfl rfl BitVec.and_zero rfl id _⟩
  | action id =>
    exact ⟨tableRows[4], by decide, rfl, rfl, selects_header (lenMask := 0xFF) (fifthMask := 0xFF) rfl rfl rfl rfl id []⟩
  | reset id =>
    exact ⟨tableRows[5], by decide, rfl, rfl, selects_header (lenMask := 0xFF) (fifthMask := 0xFF) rfl rfl rfl rfl id []⟩
  | status id len err params chk =>
    refine ⟨tableRows[6], by decide, rfl, rfl, ?_⟩
    rw [encode, List.append_assoc]
    exact selects_header rfl rfl BitVec.and_zero BitVec.and_zero id _

end Sys2Proof.Machine
end

section
/-!
The checksum (spec/30_encoding.md R84, R85), the layout of a command packet (R80 to R83) and what the parser makes of a packet's bytes
(R82; spec/41_packet_reader.md R142).
-/
namespace Sys2Proof.Machine

/-! ## The checksum -/

/-- A byte is the checksum of those before it when all together sum to FF (R85). -/
theorem eq_checksum_iff {b : Byte} {bytes : List Byte} : b = checksum bytes ↔ sum8 (bytes ++ [b]) = 0xFF := by
  have hall : sum8 bytes + checksum bytes = 0xFF := BitVec.add_not_self _
  rw [sum8_append, ← hall, BitVec.add_right_inj]
  simp [sum8]

/-- Settles O7: the checksum is the byte that makes the sum FF (`eq_checksum_iff`). -/
theorem checksumComplement : Obligations.ChecksumComplement := fun _ => eq_checksum_iff.1 rfl

theorem sum8_map_range_succ (p : Nat → Byte) (n : Nat) :
    sum8 ((List.range (n + 1)).map p) = sum8 ((List.range n).map p) + p n := by
  simp [List.range_succ, sum8_append, sum8]

/-- Changing one byte changes the sum (R85). -/
theorem sum8_ne_of_one_byte {p q : Nat → Byte} {n i : Nat} (hi : i < n) (hne : p i ≠ q i)
    (heq : ∀ j, j ≠ i → p j = q j) : sum8 ((List.range n).map p) ≠ sum8 ((List.range n).map q) := by
  induction n with
  | zero => omega
  | succ n ih =>
    rw [sum8_map_range_succ, sum8_map_range_succ]
    by_cases hlast : i = n
    · subst hlast
      have hbefore : (List.range i).map p = (List.range i).map q :=
        List.map_congr_left fun j hj => heq j (Nat.ne_of_lt (List.mem_range.1 hj))
      rwa [hbefore, ne_eq, BitVec.add_right_inj]
    · rw [heq n (Ne.symm hlast), ne_eq, BitVec.add_left_inj]
      exact ih (by omega)

/-! ## The command packet -/

theorem packetOf_of_operation {c : Params} {i : Instr} {op : Op} (h : operationOf i = some op) :
    packetOf c i = encodeCommand (targetOf i) (c.code op) (paramsOf i) := by
  rw [packetOf, h]

theorem idLegal_targetOf {i : Instr} {op : Op} (h : operationOf i = some op) (hwf : i.wellFormed = true) :
    idLegal (targetOf i) = true := by
  cases i with
  | status => cases h
  | ping | action | reset => exact hwf
  | read | write | regWrite =>
    simp only [Instr.wellFormed, Bool.and_eq_true] at hwf
    exact hwf.1

/-- Settles O6: the packet is `encodeCommand`, whose length byte does not wrap (`paramsOf_length_le`). -/
theorem packetLayout : Obligations.PacketLayout := by
  intro c i op hop hwf
  have hcount : (paramsOf i).length ≤ 253 := paramsOf_length_le hop hwf
  have hlength : (packetOf c i).length = (paramsOf i).length + 6 := by
    rw [packetOf_of_operation hop, encodeCommand_length]
  refine ⟨_, _, packetOf_of_operation hop, idLegal_targetOf hop hwf, Laws.Wire.lengthByte_toNat hcount, ?_, by omega, by omega⟩
  simp [checksum, sum8, BitVec.add_assoc]

/-! ## The parser's verdict on a packet -/

/-- Behind a marker, a second one, an accepted id and the expected length byte, only the checksum decides (R140). -/
theorem parseStatus_result_of_header {bound k : Nat} {p : Nat → Byte} {e : Byte} {n : Nat} (h : markerAt bound p k)
    (hmark : p (k + 1) = Config.marker) (hid : p (k + 2) = e ∨ e = Config.broadcastId)
    (hlen : (p (k + 3)).toNat = n + Config.lenOverhead) : (parseStatus bound e n p).result =
      if sum8 ((List.range (n + 4)).map fun j => p (k + 2 + j)) = 0xFF then .success else .checksumMismatch := by
  have hid : ¬ (p (k + 2) ≠ e ∧ e ≠ Config.broadcastId) := by tauto
  have hlast : k + 2 + (n + 3) = k + 5 + n := by omega
  have hsum := eq_checksum_iff (b := p (k + 5 + n)) (bytes := (List.range (n + 3)).map fun j => p (k + 2 + j))
  simp only [List.range_succ (n := n + 3), List.map_append, List.map_singleton, hlast, ← hsum]
  unfold parseStatus
  rw [firstMarker_eq_some.2 h]
  dsimp only
  rw [if_neg (not_not.2 hmark), if_neg hid, if_neg (not_not.2 hlen), ite_not]
  split <;> rfl

/-- One byte changed behind the header of an accepted reply, its checksum included, and the checksum is wrong (R85). -/
theorem checksumMismatch_of_one_byte {bound k n m : Nat} {e : Byte} {p q : Nat → Byte} (hk : markerAt bound p k)
    (hsucc : (parseStatus bound e n p).result = .success) (hm : m ≤ n + 1) (hne : q (k + 4 + m) ≠ p (k + 4 + m))
    (heq : ∀ x, x ≠ k + 4 + m → q x = p x) : (parseStatus bound e n q).result = .checksumMismatch := by
  obtain ⟨hmark, hid, hlen, -⟩ := (parseStatus_of_marker hk e n).1.1 hsucc
  have hsum : sum8 ((List.range (n + 4)).map fun j => p (k + 2 + j)) = 0xFF := by
    by_contra hsum
    rw [parseStatus_result_of_header hk hmark hid hlen, if_neg hsum] at hsucc
    cases hsucc
  have hchanged : sum8 ((List.range (n + 4)).map fun j => q (k + 2 + j)) ≠ 0xFF := by
    rw [← hsum]
    have hplace : k + 2 + (m + 2) = k + 4 + m := by omega
    exact sum8_ne_of_one_byte (i := m + 2) (by omega) (by rwa [hplace]) fun j hj => heq _ (by omega)
  have hheader : ∀ x, x < k + 4 → q x = p x := fun x hx => heq x (by omega)
  have hkq : markerAt bound q k := by
    obtain ⟨hbound, hbefore, hfirst⟩ := hk
    exact ⟨hbound, fun x hx => by rw [hheader x (by omega)]; exact hbefore x hx, by rwa [hheader k (by omega)]⟩
  rw [← hheader _ (by omega)] at hmark hid hlen
  rw [parseStatus_result_of_header hkq hmark hid hlen, if_neg hchanged]

theorem xor_bit_ne {j : Nat} (h : j < 8) (b : Byte) : b ^^^ (1#8 <<< j) ≠ b := by
  have hbit : ∀ j < 8, 1#8 <<< j ≠ 0#8 := by decide
  intro heq
  have heq : b ^^^ (1#8 <<< j) = b ^^^ 0#8 := by rw [heq, BitVec.xor_zero]
  exact hbit j h ((BitVec.xor_right_inj b).1 heq)

/-- Settles O8: a flipped bit changes its byte (`xor_bit_ne`), and one changed byte the sum (`checksumMismatch_of_one_byte`). -/
theorem bitFlipFailsChecksum : Obligations.BitFlipFailsChecksum := by
  intro bound e n k m j p hk hsucc hm hj
  refine checksumMismatch_of_one_byte hk hsucc hm ?_ fun x hx => if_neg hx
  rw [if_pos rfl]
  exact xor_bit_ne hj _

/-! ## A command packet read back -/

/-- Polling the bytes of a list, a part of them gives that part. -/
theorem map_polls_eq {bytes before part after : List Byte} {n : Nat} {p : Nat → Byte}
    (hbytes : bytes = before ++ part ++ after) (hn : part.length = n)
    (hpoll : ∀ k, k < bytes.length → bytes[k]? = some (p k)) :
    (List.range n).map (fun j => p (before.length + j)) = part := by
  subst hbytes hn
  refine List.ext_getElem (by simp) fun j _ hj => ?_
  have hbyte := hpoll (before.length + j) (by simp; omega)
  rw [List.append_assoc, List.getElem?_append_right (by omega), Nat.add_sub_cancel_left, List.getElem?_append_left hj,
    List.getElem?_eq_getElem hj] at hbyte
  simpa using (Option.some.inj hbyte).symm

/-- The parser accepts `EncodeCommand`'s packet: the header passes its checks, the sum is FF (`checksumComplement`). -/
theorem parseStatus_encodeCommand {bound : Nat} {id code : Byte} {params : List Byte} {p : Nat → Byte} (hb : 0 < bound)
    (hn : params.length ≤ Config.maxParam)
    (hpoll : ∀ k, k < (encodeCommand id code params).length → (encodeCommand id code params)[k]? = some (p k)) :
    (parseStatus bound id params.length p).result = .success ∧
      (parseStatus bound id params.length p).summed = id :: lengthByte params.length :: code :: params := by
  have hbyte : ∀ k, k < 5 → (encodeCommand id code params)[k]? = some (p k) := fun k hk =>
    hpoll k (by rw [encodeCommand_length]; omega)
  have hmark : markerAt bound p 0 := ⟨hb, fun j hj => absurd hj j.not_lt_zero, (Option.some.inj (hbyte 0 (by omega))).symm⟩
  have hmark2 : p 1 = Config.marker := (Option.some.inj (hbyte 1 (by omega))).symm
  have hid : p 2 = id := (Option.some.inj (hbyte 2 (by omega))).symm
  have hlen : p 3 = lengthByte params.length := (Option.some.inj (hbyte 3 (by omega))).symm
  have hcount : (p 3).toNat = params.length + Config.lenOverhead := by rw [hlen, Laws.Wire.lengthByte_toNat hn]
  have hbody : (List.range (params.length + 3)).map (fun j => p (0 + 2 + j)) =
      id :: lengthByte params.length :: code :: params :=
    map_polls_eq (before := [Config.marker, Config.marker]) rfl rfl hpoll
  have hall : (List.range (params.length + 4)).map (fun j => p (0 + 2 + j)) =
      id :: lengthByte params.length :: code :: params ++ [checksum (id :: lengthByte params.length :: code :: params)] :=
    map_polls_eq (before := [Config.marker, Config.marker]) (List.append_nil _).symm (by simp) hpoll
  have hsucc : (parseStatus bound id params.length p).result = .success := by
    rw [parseStatus_result_of_header hmark hmark2 (.inl hid) hcount, hall, if_pos (checksumComplement _)]
  exact ⟨hsucc, ((parseStatus_of_marker hmark id params.length).2 hsucc).trans hbody⟩

/-- Settles O9: a legal call's packet is `encodeCommand` of at most MAX_PARAM parameters (`parseStatus_encodeCommand`). -/
theorem commandParsesAsStatus : Obligations.CommandParsesAsStatus := by
  intro c i op p hc hop hwf hpoll
  rw [packetOf_of_operation hop] at hpoll
  exact parseStatus_encodeCommand (Params.scanBound_pos hc) (paramsOf_length_le hop hwf) hpoll

end Sys2Proof.Machine
end

section
/-!
The packet writer's calls: the call as a function (spec/42_instructions.md R174), a call that reads no reply (spec/40_packet_writer.md
R117, spec/42_instructions.md R170), and where a step leaves a call unfinished (R116, R132, R241).
-/
namespace Sys2Proof.Machine

/-- Settles O11: the sequencer's run of the accepted call is the function's (`exec_eq_callDone`). -/
theorem callAsFunction : Obligations.CallAsFunction := fun _ _ => exec_eq_callDone

/-! ## A call that reads no reply -/

/-- A call that expects no reply is in no phase of READSTATUS (R167). -/
theorem ReaderInv.not_reads {s : State} (h : ReaderInv s) (hno : replyExpected s.lOp s.lId = false) : s.phase.reads = false := by
  obtain ⟨hread, -⟩ := h
  exact Bool.eq_false_iff.2 fun hr => by simp [hread hr] at hno

/-- A call that reads no reply, past `W_DIR`: what stands on its trace are `Dir(T)` and sends (R170). -/
def SendsOnly (s : State) : Prop :=
  ReaderInv s ∧ replyExpected s.lOp s.lId = false ∧ s.phase ≠ .wDir ∧ Sending s.trace

/-- A tick of the writer that moves is one send and does not go back to `W_DIR` (`oneOperationPerPhase`, `phaseTransitions`). -/
theorem sending_moves {s t : State} (hread : s.phase.reads = false) (hdir : s.phase ≠ .wDir) (hsend : Sending s.trace)
    (ht : tick s = .moves t) : t.phase ≠ .wDir ∧ Sending t.trace := by
  have htrace := oneOperationPerPhase s t ht
  obtain ⟨hphase, -⟩ := phaseTransitions s t ht
  cases hp : s.phase <;> simp only [hp] at htrace hphase
  case idle | done => simp [tick, hp] at ht
  case wDir => exact absurd hp hdir
  case wMark0 | wMark1 | wId | wLen => exact ⟨by simp [hphase], htrace ▸ hsend.tx _⟩
  case wInstr | wParam | wChk =>
    refine ⟨?_, htrace ▸ hsend.tx _⟩
    rw [hphase]
    split_ifs <;> simp
  all_goals simp [hp, Phase.reads] at hread

/-- Where the writer rests nothing is added to the trace. -/
theorem sending_rests {s t : State} (hread : s.phase.reads = false) (hdir : s.phase ≠ .wDir) (hsend : Sending s.trace)
    (ht : tick s = .rests t) : t.phase ≠ .wDir ∧ Sending t.trace := by
  obtain ⟨-, rfl⟩ | ⟨-, -, -, rfl⟩ | ⟨hp, -⟩ | ⟨-, rfl⟩ := rests_cases ht
  · exact ⟨hdir, hsend⟩
  · exact ⟨hdir, hsend⟩
  · simp [hp, Phase.reads] at hread
  · exact ⟨by simp, hsend⟩

theorem sendsOnly_tick (s : State) (h : SendsOnly s) : SendsOnly (tick s).state := by
  obtain ⟨hinv, hno, hdir, hsend⟩ := h
  have hread := hinv.not_reads hno
  have hf := tick_fixed s
  refine ⟨readerInv_tick s hinv, by rwa [State.lOp_of_fixed hf, State.lId_of_fixed hf], ?_⟩
  cases ht : tick s with
  | moves t => exact sending_moves hread hdir hsend ht
  | rests t => exact sending_rests hread hdir hsend ht

/-- From `W_DIR` on: the first tick commands `Dir(T)`, and every further one keeps `SendsOnly`. -/
theorem sending_proceed {s : State} (hp : s.phase = .wDir) (htrace : s.trace = [])
    (hno : replyExpected s.lOp s.lId = false) : Sending (proceed s).trace := by
  have hfirst : tick s.watched = .moves ((s.watched.setDir .transmit).goto .wMark0) := by
    simp only [tick, State.watched_phase, hp]
  have hstart : SendsOnly ((s.watched.setDir .transmit).goto .wMark0) :=
    ⟨readerInv_of_not_reads rfl, hno, by simp, [], by simp [htrace]⟩
  obtain ⟨n, hn⟩ : ∃ n, s.ticks = 1 + n := ⟨s.ticks - 1, by have := s.ticks_pos; omega⟩
  rw [proceed, hn, runTicks_movesTo (movesTo_one hfirst)]
  obtain ⟨-, -, -, hsend⟩ := runTicks_keeps sendsOnly_tick n _ hstart
  exact hsend

/-- Acceptance starts an empty trace and leaves the receive path alone (R40). -/
theorem trace_receivePath_acceptedAs {i : Instr} (hc : i.format = .cmd) (s : State) :
    (s.acceptedAs i).trace = [] ∧ (s.acceptedAs i).receivePath = s.receivePath := by
  cases i with
  | status => simp [Instr.format] at hc
  | _ => exact ⟨rfl, rfl⟩

/-- Settles O33: a run that expects no reply keeps the receive path (`runFrame_proceed`) and only sends (`sending_proceed`). -/
theorem noReplyFrame : Obligations.NoReplyFrame := by
  intro i s t hc hno he
  obtain ⟨-, rfl⟩ := exec_cmd_cases hc he
  rw [readsReply_acceptedAs hc s] at hno
  obtain ⟨htrace, hpath⟩ := trace_receivePath_acceptedAs hc s
  obtain ⟨-, -, -, hkeep⟩ := runFrame_proceed (readerInv_acceptedAs hc s)
  obtain ⟨hrx, hdev, herr, hscan, hrecv, hbusy⟩ := State.receivePath_eq_iff.1 ((hkeep hno).trans hpath)
  exact ⟨hrx, hdev, herr, hscan, hrecv, hbusy, sending_proceed (acceptedAs_phase hc s) htrace hno⟩

/-! ## Where a run ends -/

/-- The most ticks a call has before it once its packet is sent (R172): those of READSTATUS, where a reply is read. -/
def State.replyTicks (s : State) : Nat :=
  if replyExpected s.lOp s.lId then 7 + s.cfg.scanBound + s.expLen else 0

/-- The most ticks that can move from here to `DONE`, one for each phase still ahead (R172) and one for each poll the scan has
left (R134). -/
def State.ticksLeft (s : State) : Nat :=
  match s.phase with
  | .idle | .done => 0
  | .wDir => 7 + s.paramCount + s.replyTicks
  | .wMark0 => 6 + s.paramCount + s.replyTicks
  | .wMark1 => 5 + s.paramCount + s.replyTicks
  | .wId => 4 + s.paramCount + s.replyTicks
  | .wLen => 3 + s.paramCount + s.replyTicks
  | .wInstr => 2 + s.paramCount + s.replyTicks
  | .wParam i => 1 + (s.paramCount - i) + s.replyTicks
  | .wChk => 1 + s.replyTicks
  | .rDrain => 7 + s.cfg.scanBound + s.expLen
  | .rDir => 6 + s.cfg.scanBound + s.expLen
  | .rScan => 5 + (s.cfg.scanBound - s.scanCnt) + s.expLen
  | .rMark2 => 5 + s.expLen
  | .rId => 4 + s.expLen
  | .rLen => 3 + s.expLen
  | .rErr => 2 + s.expLen
  | .rParam i => 1 + (s.expLen - i)
  | .rChk => 1

theorem State.replyTicks_of_fixed {s t : State} (h : t.fixed = s.fixed) : t.replyTicks = s.replyTicks := by
  simp only [State.replyTicks, State.lOp_of_fixed h, State.lId_of_fixed h, State.cfg_of_fixed h, State.expLen_of_fixed h]

/-- The scan counts each of its polls (R134). -/
theorem State.scan_scanCnt (s : State) : s.scan.scanCnt = s.scanCnt + 1 := by
  unfold State.scan
  split
  · rfl
  · split <;> simp

/-- A tick that moves is one tick less to go: it goes on to a later phase (`phaseTransitions`), or to the next byte of its loop. -/
theorem ticksLeft_moves {s t : State} (h : ControlInv s) (ht : tick s = .moves t) : t.ticksLeft < s.ticksLeft := by
  obtain ⟨-, -, -, -, hagrees⟩ := h
  obtain ⟨hphase, -⟩ := phaseTransitions s t ht
  have hf : t.fixed = s.fixed := by simpa only [ht, Progress.state_moves] using tick_fixed s
  have hcfg := State.cfg_of_fixed hf
  have hcount := State.paramCount_of_fixed hf
  have hexp := State.expLen_of_fixed hf
  have hreply := State.replyTicks_of_fixed hf
  cases hp : s.phase <;> simp only [phaseAgrees, hp] at hagrees <;> simp only [hp] at hphase
  case idle | done => simp [tick, hp] at ht
  case wDir | wMark0 | wMark1 | wId | wLen | rDrain | rDir | rChk =>
    simp only [State.ticksLeft, hp, hphase, hcfg, hcount, hexp, hreply]
    omega
  case wInstr | wParam | rMark2 | rId | rLen | rErr | rParam =>
    split_ifs at hphase <;> simp only [State.ticksLeft, hp, hphase, hcount, hexp, hreply] <;> omega
  case wChk =>
    split_ifs at hphase with hreads <;>
      simp only [State.ticksLeft, State.replyTicks, hp, hphase, hcfg, hexp, hreads, if_true] <;> omega
  case rScan =>
    have hpolls : t.scanCnt = s.scanCnt + 1 := by
      simp only [tick, hp] at ht
      cases ht
      exact s.scan_scanCnt
    split_ifs at hphase <;> simp only [State.ticksLeft, hp, hphase, hpolls, hcfg, hexp] <;> omega

/-- A run has ticks enough for the longest call (log 1). -/
theorem ticksLeft_lt_ticks {s : State} (h : ControlInv s) : s.ticksLeft < s.ticks := by
  obtain ⟨hreads, -⟩ := h.readerInv
  obtain ⟨-, -, -, hlatch, -⟩ := h
  have hticks : s.ticks = 521 + s.cfg.scanBound := rfl
  by_cases hidle : s.phase = .idle
  · simp only [State.ticksLeft, hidle]
    omega
  obtain ⟨-, hcount, hreply⟩ := hlatch hidle
  have hcount : s.paramCount ≤ 253 := hcount
  have hexp (hr : replyExpected s.lOp s.lId = true) : s.expLen ≤ 253 := (hreply hr).1
  have hread : s.replyTicks ≤ 260 + s.cfg.scanBound := by
    unfold State.replyTicks
    split
    · rename_i hr
      have := hexp hr
      omega
    · omega
  cases hp : s.phase <;> simp only [State.ticksLeft, hp]
  case idle => exact absurd hp hidle
  case wDir | wMark0 | wMark1 | wId | wLen | wInstr | wParam | wChk | rChk | done => omega
  all_goals
    have := hexp (hreads (by simp [hp, Phase.reads]))
    omega

/-- A run with ticks enough ends where a tick rests. -/
theorem runTicks_rests {n : Nat} {s : State} (h : ControlInv s) (hn : s.ticksLeft < n) :
    ∃ u, tick u = .rests (runTicks n s) := by
  induction n generalizing s with
  | zero => omega
  | succ n ih =>
    have hinv := controlInv_tick s h
    unfold runTicks
    cases ht : tick s with
    | rests t => exact ⟨s, ht⟩
    | moves t =>
      rw [ht] at hinv
      have hless := ticksLeft_moves h ht
      exact ih hinv (by omega)

/-- A run ends idle, in the drain wait, or at a send (R116, R132, R241). -/
theorem proceed_phase {s : State} (h : ControlInv s) :
    (proceed s).phase = .idle ∨ (proceed s).phase = .rDrain ∨
      ((proceed s).phase.writes = true ∧ (proceed s).phase ≠ .wDir) := by
  have hwatched : ControlInv s.watched := h
  obtain ⟨u, hu⟩ := runTicks_rests hwatched (n := s.ticks) (ticksLeft_lt_ticks hwatched)
  rw [proceed]
  obtain ⟨hp, h⟩ | ⟨hw, hd, -, h⟩ | ⟨hp, -, h⟩ | ⟨-, h⟩ := rests_cases hu <;> rw [h]
  · exact .inl hp
  · exact .inr (.inr ⟨hw, hd⟩)
  · exact .inr (.inl hp)
  · exact .inl rfl

/-- Settles O47: a step is the reset event, which leaves the block idle, or a run (`proceed_phase`). -/
theorem hangsOnlyWaiting : Obligations.HangsOnlyWaiting := by
  intro s t h hstep
  obtain ⟨-, rfl⟩ | ⟨-, -, i, -, he⟩ | ⟨-, -, rfl⟩ := step_cases hstep
  · exact .inl rfl
  · obtain ⟨ha, rfl⟩ | ⟨id, len, err, params, chk, -, rfl⟩ := exec_cases he
    · exact proceed_phase (controlInv_acceptedAs ha h)
    · exact proceed_phase h
  · exact proceed_phase h

end Sys2Proof.Machine
end

section
/-!
A status packet at the receiver (spec/41_packet_reader.md R130 to R142): READSTATUS runs to the return of the call, and a packet that
passes every check is polled whole and no byte more (spec/30_encoding.md R93).
-/
namespace Sys2Proof.Machine

/-! ## READSTATUS in one step -/

/-- The packet reaches the receiver and the block runs on from its phase (R130, log 16). -/
theorem exec_status (id len err : Byte) (params : List Byte) (chk : Byte) (s : State) :
    exec (.status id len err params chk) s = .next (proceed (s.receive (encode s.cfg (.status id len err params chk)))) := rfl

/-- A run that is in the marker scan of `r` after at most the turn of the line goes on to the return of the call (R130, log 1). -/
theorem proceed_eq_replyRead {m : Nat} {s r : State} (hm : m ≤ 2) (hscan : movesTo m s.watched (r.scanning 0))
    (hcfg : r.cfg = s.cfg) (hlegal : r.cfg.legal = true) (hfit : r.expLen ≤ r.rxbuf.length) : proceed s = r.replyRead := by
  obtain ⟨t, hread, hdone, hexit⟩ := reachesExit (Params.scanBound_pos hlegal) hfit
  have hrest : tick t = .rests r.replyRead := by
    simp only [tick, hdone, hexit]
    rfl
  have hpolls := parseStatus_polls_le r.cfg.scanBound r.lId r.expLen r.pollAt
  have hexpLen : r.expLen < 256 := r.lExpLen.isLt
  have hticks : s.ticks = 521 + r.cfg.scanBound := by rw [hcfg]; rfl
  exact proceed_of_movesTo (movesTo_trans hscan hread) hrest (by omega)

/-- A block at the start of its marker scan (R133, R134). -/
theorem watched_of_listening {s : State} (h : listening s = true) : s.watched = s.scanning 0 := by
  simp only [listening, Bool.and_eq_true, decide_eq_true_eq] at h
  obtain ⟨hp, hscan⟩ := h
  rw [State.watched_of_reader (by simp [hp, Phase.writes]), State.scanning, State.hearing, State.heard_zero, ← hp, ← hscan]
  rfl

/-- READSTATUS from the start of its scan (R134). -/
theorem proceed_of_listening {s : State} (hlegal : s.cfg.legal = true) (hfit : s.expLen ≤ s.rxbuf.length)
    (h : listening s = true) : proceed s = s.replyRead :=
  proceed_eq_replyRead (Nat.zero_le _) (watched_of_listening h) rfl hlegal hfit

/-- The drain wait, answered "not busy" at its next query (R132, R133). -/
theorem proceed_of_drained {s : State} (hlegal : s.cfg.legal = true) (hfit : s.expLen ≤ s.rxbuf.length)
    (hp : s.phase = .rDrain) (h : drained s = true) : proceed s = s.turnedAround.replyRead := by
  have hstart : s.watched = s.goto .rDrain := by
    rw [State.watched_of_reader (by simp [hp, Phase.writes]), ← hp]
    rfl
  exact proceed_eq_replyRead (Nat.le_refl _) (hstart ▸ movesTo_turnedAround h) rfl hlegal hfit

/-- Settles O18: with the packet at its receiver the block runs on, from its scan (`proceed_of_listening`) or through the turn of the
line (`proceed_of_drained`). -/
theorem statusIsParsed : Obligations.StatusIsParsed := by
  intro id len err params chk s hlegal hfit
  rw [exec_status]
  exact ⟨fun h => congrArg _ (proceed_of_listening hlegal hfit h),
    fun hp h => congrArg _ (proceed_of_drained hlegal hfit hp h)⟩

/-! ## A packet that passes every check -/

/-- The next polls return the received bytes in order (R58). -/
theorem State.pollAt_receive {bytes : List Byte} {k : Nat} (h : k < bytes.length) (s : State) :
    bytes[k]? = some ((s.receive bytes).pollAt k) := by
  simp [State.pollAt, List.getElem?_append_left h, List.getElem?_eq_getElem h]

/-- Polling received bytes to their end leaves the receiver as it was before them (R56, R58). -/
theorem State.heard_receive (bytes : List Byte) (s : State) :
    (s.receive bytes).heard bytes.length = { s with trace := s.trace ++ bytes.map Event.rx } := by
  have hpolls : (List.range bytes.length).map (s.receive bytes).pollAt = bytes := by
    simpa using map_polls_eq (before := []) (List.append_nil bytes).symm rfl fun _ hk => s.pollAt_receive hk
  have htrace : (List.range bytes.length).map (fun j => Event.rx ((s.receive bytes).pollAt j)) = bytes.map Event.rx := by
    rw [← congrArg (List.map Event.rx) hpolls, List.map_map]
    rfl
  have hdraws : s.draws + (bytes.length - (bytes ++ s.rxAnswers).length) = s.draws := by simp
  simp only [State.heard, htrace, State.receive_rxAnswers, List.drop_left, State.receive_draws, hdraws, State.receive_trace]
  rfl

/-- The verdict on a packet that passes every check (R142). -/
theorem parseStatus_of_checksPass {bound k : Nat} {p : Nat → Byte} {e : Byte} {n : Nat} (h : markerAt bound p k)
    (hpass : ChecksPass e n p k) : parseStatus bound e n p =
      ⟨.success, k + 6 + n, k + 1, (List.range (n + 3)).map fun j => p (k + 2 + j)⟩ := by
  obtain ⟨hmark, hid, hlen, hchk⟩ := hpass
  have hid : ¬ (p (k + 2) ≠ e ∧ e ≠ Config.broadcastId) := by tauto
  unfold parseStatus
  rw [firstMarker_eq_some.2 h]
  dsimp only
  rw [if_neg (not_not.2 hmark), if_neg hid, if_neg (not_not.2 hlen)]
  exact if_neg (not_not.2 hchk)

/-- The parser accepts a status packet with the expected id and length and the right checksum, and polls it to its end. -/
theorem parseStatus_encode_status {bound : Nat} {e id len err chk : Byte} {params : List Byte} {p : Nat → Byte} {c : Params}
    (hb : 0 < bound) (hid : id = e ∨ e = Config.broadcastId) (hlen : len.toNat = params.length + Config.lenOverhead)
    (hchk : chk = checksum (id :: len :: err :: params))
    (hpoll : ∀ k, k < (encode c (.status id len err params chk)).length →
      (encode c (.status id len err params chk))[k]? = some (p k)) :
    parseStatus bound e params.length p =
      ⟨.success, (encode c (.status id len err params chk)).length, 1, id :: len :: err :: params⟩ := by
  have hlength : (encode c (.status id len err params chk)).length = 0 + 6 + params.length := by
    simp [encode, header_eq]
    omega
  have hbyte : ∀ k, k < 6 + params.length → (encode c (.status id len err params chk))[k]? = some (p k) := fun k hk =>
    hpoll k (by omega)
  have hmark : p 0 = Config.marker := (Option.some.inj (hbyte 0 (by omega))).symm
  have hmark2 : p 1 = Config.marker := (Option.some.inj (hbyte 1 (by omega))).symm
  have hid2 : p 2 = id := (Option.some.inj (hbyte 2 (by omega))).symm
  have hlen3 : p 3 = len := (Option.some.inj (hbyte 3 (by omega))).symm
  have hlast : p (0 + 5 + params.length) = chk := by
    have hplace : 0 + 5 + params.length = params.length + 5 := by omega
    have hbyte := hbyte (params.length + 5) (by omega)
    rw [hplace]
    simpa [encode, header_eq] using hbyte.symm
  have hbody : (List.range (params.length + 3)).map (fun j => p (0 + 2 + j)) = id :: len :: err :: params :=
    map_polls_eq (before := [Config.marker, Config.marker]) rfl rfl hpoll
  rw [hlength, ← hbody]
  exact parseStatus_of_checksPass ⟨hb, fun j hj => absurd hj j.not_lt_zero, hmark⟩
    ⟨hmark2, hid2 ▸ hid, hlen3 ▸ hlen, by rw [hlast, hbody, hchk]; rfl⟩

/-- A reply's exit is that of the parser's verdict (R142, R209). -/
theorem State.replyRead_of_verdict {r : State} {v : Verdict}
    (h : parseStatus r.cfg.scanBound r.lId r.expLen r.pollAt = v) : r.replyRead = (r.heard v.polls).exitWith v := by
  rw [← h, State.replyRead]

/-- Settles O19: the reply is read (`proceed_of_listening`), the verdict is `Success` after the packet's last byte
(`parseStatus_encode_status`), and its polls are the packet (`State.heard_receive`). -/
theorem goodStatusAccepted : Obligations.GoodStatusAccepted := by
  intro id len err params chk s hlegal hlisten hfit hn hlen hid hchk
  let packet := encode s.cfg (.status id len err params chk)
  have hrun : proceed (s.receive packet) = (s.receive packet).replyRead := proceed_of_listening hlegal hfit hlisten
  have hverdict := parseStatus_encode_status (Params.scanBound_pos hlegal) hid (hn ▸ hlen) hchk fun _ hk =>
    s.pollAt_receive (bytes := packet) hk
  have hexit : (s.receive packet).replyRead =
      State.exitWith ⟨.success, packet.length, 1, id :: len :: err :: params⟩
        { s with trace := s.trace ++ packet.map Event.rx } := by
    rw [← State.heard_receive]
    exact State.replyRead_of_verdict (hn ▸ hverdict)
  refine ⟨_, (exec_status ..).trans (congrArg _ hrun), ?_⟩
  rw [hexit]
  exact ⟨rfl, rfl, rfl, rfl, rfl, rfl⟩

end Sys2Proof.Machine
end

section
/-!
What each of the six calls does (spec/42_instructions.md R161 to R167, R169): where the transport makes it wait nowhere, it sends its
packet and either returns with the parser's verdict on a reply or succeeds at once.
-/
namespace Sys2Proof.Machine

/-- Settles O10, operation by operation. -/
theorem replyExpectedTable : Obligations.ReplyExpectedTable := by
  intro op id
  cases op with
  | ping | action => simp [replyExpected]
  | read | write | regWrite | reset => simp [replyExpected]

/-- Settles O38: the idle port is the first thing every meaning asks for (`exec_of_busy`). -/
theorem busyPortRefuses : Obligations.BusyPortRefuses := fun _ _ => exec_of_busy

/-! ## The exit of a call -/

/-- On `Success` the sum holds id, length and error byte, the last at poll `SCAN_CNT + 3` of the reply, and its parameters. -/
theorem parseStatus_summed_of_success {bound : Nat} {e : Byte} {n : Nat} {p : Nat → Byte}
    (h : (parseStatus bound e n p).result = .success) : (parseStatus bound e n p).summed.length = n + 3 ∧
      (parseStatus bound e n p).summed[2]? = some (p ((parseStatus bound e n p).scanned + 3)) := by
  obtain ⟨k, hmark, hpass⟩ := (parseStatus_success_iff bound e n p).1 h
  rw [parseStatus_of_checksPass hmark hpass]
  simp

/-- Whatever its verdict, a call that read a reply returns to idle and leaves direction, trace and receiver alone (R209, R210). -/
theorem State.exitWith_frame (v : Verdict) (s : State) : (s.exitWith v).phase = .idle ∧ (s.exitWith v).result = v.result ∧
    (s.exitWith v).dir = s.dir ∧ (s.exitWith v).trace = s.trace ∧ (s.exitWith v).rxAnswers = s.rxAnswers := by
  unfold State.exitWith
  split
  case isTrue h => exact ⟨rfl, h.symm, rfl, rfl, rfl⟩
  case isFalse => exact ⟨rfl, rfl, rfl, rfl, rfl⟩

theorem State.exitWith_success {v : Verdict} (h : v.result = .success) (s : State) :
    (s.exitWith v).devErr = v.summed.getD 2 s.devErr ∧ (s.exitWith v).rxbuf = v.summed.drop 3 ++ s.rxbuf.drop s.expLen := by
  rw [State.exitWith, if_pos h]
  exact ⟨rfl, rfl⟩

/-- On a failure `dev.err` keeps its value (R32). -/
theorem State.exitWith_failure {v : Verdict} (h : v.result ≠ .success) (s : State) : (s.exitWith v).devErr = s.devErr := by
  rw [State.exitWith, if_neg h]
  rfl

/-! ## The whole call -/

/-- From its acceptance a call that expects a reply returns with the parser's verdict (R174, R209). -/
theorem repliedWith_callDone {a : State} (htrace : a.trace = []) (hreply : replyExpected a.lOp a.lId = true)
    (params : List Byte) : RepliedWith (encodeCommand a.lId (a.cfg.code a.lOp) params)
      (parseStatus a.cfg.scanBound a.lId a.expLen a.pollAt) a (a.callDone params) := by
  let v := parseStatus a.cfg.scanBound a.lId a.expLen a.pollAt
  let r := (a.commandSent params).turnedAround
  have hdone : a.callDone params = (r.heard v.polls).exitWith v := if_pos hreply
  obtain ⟨hphase, hresult, hdir, htr, hrx⟩ := (r.heard v.polls).exitWith_frame v
  rw [hdone]
  refine ⟨hphase, hresult, hdir, ?_, hrx, fun hv => ?_, fun hv => State.exitWith_failure hv _⟩
  · rw [htr]
    simp [State.heard, r, State.turnedAround, State.commandSent, htrace, State.pollAt, v]
  · obtain ⟨hlength, herr⟩ := parseStatus_summed_of_success hv
    obtain ⟨hdev, hbuf⟩ := State.exitWith_success hv (r.heard v.polls)
    refine ⟨?_, ?_⟩
    · rw [hdev, List.getD_eq_getElem?_getD, herr, Option.getD_some]
    · rw [hbuf, hlength, Nat.add_sub_cancel]
      rfl

/-- From its acceptance a call that expects no reply sends its packet and succeeds (R170, R209). -/
theorem returnedAtOnce_callDone {a : State} (htrace : a.trace = []) (hreply : replyExpected a.lOp a.lId = false)
    (params : List Byte) : ReturnedAtOnce (encodeCommand a.lId (a.cfg.code a.lOp) params) a (a.callDone params) := by
  have hdone : a.callDone params = (a.commandSent params).returned .success := if_neg (by simp [hreply])
  rw [hdone]
  refine ⟨rfl, rfl, rfl, ?_, rfl, rfl, rfl, rfl, rfl, rfl⟩
  simp [State.returned, State.commandSent, htrace]

theorem packetOf_acceptedAs {i : Instr} (hc : i.format = .cmd) (s : State) : packetOf s.cfg i =
    encodeCommand (s.acceptedAs i).lId ((s.acceptedAs i).cfg.code (s.acceptedAs i).lOp) (paramsOf i) := by
  cases i with
  | status => simp [Instr.format] at hc
  | _ => rfl

/-- What `RepliedWith` asks of the state before the call it asks of the receive path, which acceptance keeps. -/
theorem RepliedWith.of_acceptedAs {i : Instr} {s t : State} {packet : List Byte} {v : Verdict}
    (h : RepliedWith packet v (s.acceptedAs i) t) : RepliedWith packet v s t := by
  cases i <;> exact h

theorem ReturnedAtOnce.of_acceptedAs {i : Instr} {s t : State} {packet : List Byte}
    (h : ReturnedAtOnce packet (s.acceptedAs i) t) : ReturnedAtOnce packet s t := by
  cases i <;> exact h

/-- A call that the transport makes wait nowhere comes to its end in one step (`exec_eq_callDone`), with the verdict on its reply
or, where none is read, at once. -/
theorem exec_runs {i : Instr} {s : State} (hcfg : s.cfg.legal = true) (ha : admissible i s = true)
    (hb : bufferInPlace i s = true) (hs : transportServes i s = true) : ∃ t, exec i s = .next t ∧
      (readsReply i = true →
        RepliedWith (packetOf s.cfg i) (parseStatus s.cfg.scanBound (targetOf i) (replyLen i) s.pollAt) s t) ∧
      (readsReply i = false → ReturnedAtOnce (packetOf s.cfg i) s t) := by
  obtain ⟨hcmd, -⟩ := admissible_iff.1 ha
  obtain ⟨htrace, -⟩ := trace_receivePath_acceptedAs hcmd s
  obtain ⟨hparams, -⟩ := answers_acceptedAs i s
  obtain ⟨-, hpoll⟩ := receiver_acceptedAs i s
  have hreads := readsReply_acceptedAs hcmd s
  refine ⟨_, exec_eq_callDone hcfg ha hb hs, fun hr => .of_acceptedAs (i := i) ?_,
    fun hr => .of_acceptedAs (i := i) ?_⟩
  · obtain ⟨hexp, hid⟩ := expLen_acceptedAs hr s
    have h := repliedWith_callDone htrace (hreads ▸ hr) (paramsOf i)
    rwa [← packetOf_acceptedAs hcmd, hparams, hid, hexp, hpoll] at h
  · rw [packetOf_acceptedAs hcmd]
    exact returnedAtOnce_callDone htrace (hreads ▸ hr) (paramsOf i)

/-- An operation other than Ping and Action reads a reply exactly where its id is not broadcast (R167), and its call runs so. -/
theorem exec_runs_unless_broadcast {i : Instr} {s : State} {op : Op} (hop : operationOf i = some op)
    (hkind : op ≠ .ping ∧ op ≠ .action) (hcfg : s.cfg.legal = true) (ha : admissible i s = true)
    (hb : bufferInPlace i s = true) (hs : transportServes i s = true) : ∃ t, exec i s = .next t ∧
      (targetOf i ≠ Config.broadcastId →
        RepliedWith (packetOf s.cfg i) (parseStatus s.cfg.scanBound (targetOf i) (replyLen i) s.pollAt) s t) ∧
      (targetOf i = Config.broadcastId → ReturnedAtOnce (packetOf s.cfg i) s t) := by
  obtain ⟨hping, haction⟩ := hkind
  have hreads : readsReply i = true ↔ targetOf i ≠ Config.broadcastId := by
    simp [readsReply, hop, replyExpectedTable op, hping, haction]
  obtain ⟨t, hrun, hreplied, hreturned⟩ := exec_runs hcfg ha hb hs
  exact ⟨t, hrun, fun hid => hreplied (hreads.2 hid), fun hid => hreturned (Bool.eq_false_iff.2 fun h => hreads.1 h hid)⟩

/-! ## The six calls -/

/-- Settles O12: a Ping reads its reply for every id. -/
theorem pingRuns : Obligations.PingRuns := by
  intro id s hcfg ha hs
  obtain ⟨t, hrun, hreplied, -⟩ := exec_runs hcfg ha rfl hs
  exact ⟨t, hrun, hreplied rfl⟩

/-- Settles O13 (`exec_runs_unless_broadcast`). -/
theorem readRuns : Obligations.ReadRuns := fun _ _ _ _ hcfg ha hs =>
  exec_runs_unless_broadcast (op := .read) rfl (by decide) hcfg ha rfl hs

/-- Settles O14 (`exec_runs_unless_broadcast`): the data sent is what TXBUF holds. -/
theorem writeRuns : Obligations.WriteRuns := fun _ _ _ _ hcfg ha htx hs =>
  exec_runs_unless_broadcast (op := .write) rfl (by decide) hcfg ha (decide_eq_true htx) hs

/-- Settles O15 as O14, with the code of RegisterWrite. -/
theorem registerWriteRuns : Obligations.RegisterWriteRuns := fun _ _ _ _ hcfg ha htx hs =>
  exec_runs_unless_broadcast (op := .regWrite) rfl (by decide) hcfg ha (decide_eq_true htx) hs

/-- Settles O16: an Action reads a reply for no id. -/
theorem actionRuns : Obligations.ActionRuns := by
  intro id s hcfg ha hs
  obtain ⟨t, hrun, -, hreturned⟩ := exec_runs hcfg ha rfl hs
  exact ⟨t, hrun, hreturned rfl⟩

/-- Settles O17 (`exec_runs_unless_broadcast`). -/
theorem resetRuns : Obligations.ResetRuns := fun _ _ hcfg ha hs =>
  exec_runs_unless_broadcast (op := .reset) rfl (by decide) hcfg ha rfl hs

end Sys2Proof.Machine
end

section
/-!
The register convenience layer (spec/43_register_convenience.md R190 to R194): its coding, its widths, `putValue` and `getValue`.
-/
namespace Sys2Proof.Machine

/-! ## Little-endian values -/

@[simp] theorem littleEndian_one (value : Nat) : littleEndian 1 value = [lo8 value] := rfl
@[simp] theorem littleEndian_two (value : Nat) : littleEndian 2 value = [lo8 value, hi8 value] := rfl

@[simp] theorem littleEndianValue_nil : littleEndianValue [] = 0 := rfl
@[simp] theorem littleEndianValue_cons (b : Byte) (rest : List Byte) :
    littleEndianValue (b :: rest) = b.toNat + 256 * littleEndianValue rest := rfl

theorem lo8_toNat (value : Nat) : (lo8 value).toNat = value % 256 := BitVec.toNat_ofNat value 8
theorem hi8_toNat (value : Nat) : (hi8 value).toNat = value / 256 % 256 := BitVec.toNat_ofNat (value / 256) 8

/-- Settles O60, width by width; at width 2 a value modulo 65536 is its low byte and 256 times the next. -/
theorem littleEndianRoundTrip : Obligations.LittleEndianRoundTrip := by
  intro w value hw
  obtain rfl | rfl | rfl : w = 0 ∨ w = 1 ∨ w = 2 := by omega
  · exact (Nat.mod_one value).symm
  · simp [lo8_toNat]
  · calc littleEndianValue (littleEndian 2 value)
        = value % 256 + 256 * (value / 256 % 256) := by simp [lo8_toNat, hi8_toNat]
      _ = value % 256 ^ 2 := by rw [Nat.pow_two, Nat.mod_mul]

/-! ## The widths -/

theorem widthOf_le_two (address : Byte) : widthOf address ≤ 2 := by
  unfold widthOf
  split
  · decide
  · split <;> decide

/-- Every address with a width is one of the table's, and those end at `addressMax` (R191). -/
theorem widthOf_eq_zero_of_gt {address : Byte} (h : Config.addressMax < address.toNat) : widthOf address = 0 := by
  have h1 : address.toNat ∉ width1Addresses := fun hm =>
    Nat.not_le.2 h ((by decide : ∀ a ∈ width1Addresses, a ≤ Config.addressMax) _ hm)
  have h2 : address.toNat ∉ width2Addresses := fun hm =>
    Nat.not_le.2 h ((by decide : ∀ a ∈ width2Addresses, a ≤ Config.addressMax) _ hm)
  simp [widthOf, h1, h2]

/-- Settles O57: the 50 addresses by evaluation, those above by `widthOf_eq_zero_of_gt`. -/
theorem widthTable : Obligations.WidthTable :=
  ⟨by decide, fun _ => widthOf_eq_zero_of_gt⟩

/-! ## putValue -/

/-- An address of width 0 is refused, whatever the state (R192, D23). -/
theorem putValue_unsupported {address : Byte} (h : widthOf address = 0) (id : Byte) (value : Nat) (s : State) :
    putValue id address value = .error .widthUnsupported ∧
      hostPutValue id address value s = .refused .widthUnsupported :=
  ⟨if_pos h, if_pos h⟩

/-- At every other width the Write is that of the value's bytes, run with them in TXBUF (R192). -/
theorem putValue_supported {address : Byte} (h : widthOf address ≠ 0) (id : Byte) (value : Nat) (s : State) :
    putValue id address value = .ok (.write id address (littleEndian (widthOf address) value)) ∧
      hostPutValue id address value s = exec (.write id address (littleEndian (widthOf address) value))
        { s with txbuf := littleEndian (widthOf address) value } :=
  ⟨if_neg h, if_neg h⟩

/-- Settles O58: `putValue_supported` at width 1 and at width 2. -/
theorem putValueExpands : Obligations.PutValueExpands := by
  intro id address value s
  refine ⟨fun h => putValue_unsupported h id value s, fun h => ?_, fun h => ?_⟩
  · simpa only [h, littleEndian_one] using putValue_supported (h.trans_ne one_ne_zero) id value s
  · simpa only [h, littleEndian_two] using putValue_supported (h.trans_ne two_ne_zero) id value s

/-! ## getValue -/

theorem hostGetValue_unsupported {address : Byte} (h : widthOf address = 0) (id : Byte) (s : State) :
    hostGetValue id address s = .refused .widthUnsupported := if_pos h

theorem hostGetValue_broadcast {address : Byte} (h : widthOf address ≠ 0) (s : State) :
    hostGetValue Config.broadcastId address s = .refused .broadcastHasNoValue := (if_neg h).trans (if_pos rfl)

theorem hostGetValue_supported {id address : Byte} (h : widthOf address ≠ 0) (hid : id ≠ Config.broadcastId) (s : State) :
    hostGetValue id address s =
      exec (.read id address (BitVec.ofNat 8 (widthOf address))) (s.withLocal (widthOf address)) :=
  (if_neg h).trans (if_neg hid)

/-- The length operand of `getValue`'s Read is the width. -/
theorem widthByte_toNat (address : Byte) : (BitVec.ofNat 8 (widthOf address)).toNat = widthOf address := by
  have := widthOf_le_two address
  rw [BitVec.toNat_ofNat]
  omega

/-- The local buffer holds exactly the bytes `getValue`'s Read asks for, so an idle block admits it whatever RXBUF is. -/
theorem admissible_localRead {id : Byte} {s : State} (hid : idLegal id = true) (hp : s.phase = .idle) (address : Byte) :
    admissible (.read id address (BitVec.ofNat 8 (widthOf address))) (s.withLocal (widthOf address)) = true := by
  have hlen : replyLenLegal (BitVec.ofNat 8 (widthOf address)) = true :=
    decide_eq_true ((widthByte_toNat address).trans_le ((widthOf_le_two address).trans (by decide)))
  have hfit : replyFits (.read id address (BitVec.ofNat 8 (widthOf address))) (s.withLocal (widthOf address)) = true :=
    decide_eq_true ((widthByte_toNat address).trans (freeBytes_length s.draws _).symm).le
  exact admissible_iff.2 ⟨rfl, by simp [Instr.wellFormed, hid, hlen], hfit, hp⟩

theorem getValueReturn_of_success {t : State} (h : t.result = .success) (address : Byte) :
    getValueReturn address t = .value (littleEndianValue (t.rxbuf.take (widthOf address))) := if_pos h

/-- Settles O59: what the host issues, that an idle block accepts it (`admissible_localRead`), and what it returns. -/
theorem getValueDecodes : Obligations.GetValueDecodes := by
  intro id address s t
  refine ⟨fun h => hostGetValue_unsupported h id s, ?_, fun h hid => ⟨hostGetValue_supported h hid s, ?_⟩,
    fun h => if_neg h, ?_, ?_⟩
  · rintro h rfl
    exact hostGetValue_broadcast h s
  · intro hp hlegal
    exact ⟨_, (hostGetValue_supported h hid s).trans (exec_of_admissible (admissible_localRead hlegal hp address))⟩
  · intro b0 more hr hw hrx
    simp [getValueReturn_of_success hr, hw, hrx]
  · intro b0 b1 more hr hw hrx
    simp [getValueReturn_of_success hr, hw, hrx]

end Sys2Proof.Machine
end

section
/-!
When each result is raised (spec/60_exceptions.md R202 to R206), and that the bytes polled alone decide it (R207, R208): the parser as
rules, one for each exit.
-/
namespace Sys2Proof.Machine

/-! ## The parser as rules -/

theorem markerAt.congr {bound k : Nat} {p q : Nat → Byte} (h : markerAt bound p k) (hq : ∀ j, j ≤ k → q j = p j) :
    markerAt bound q k := by
  obtain ⟨hbound, hbefore, hmark⟩ := h
  exact ⟨hbound, fun j hj => by rw [hq j (by omega)]; exact hbefore j hj, by rwa [hq k (by omega)]⟩

theorem markerAt.unique {bound k j : Nat} {p : Nat → Byte} (hk : markerAt bound p k) (hj : markerAt bound p j) : k = j :=
  Option.some.inj ((firstMarker_eq_some.2 hk).symm.trans (firstMarker_eq_some.2 hj))

/-- The exits of the parser (R142): under which checks it comes to which verdict. -/
inductive ParsesTo (bound : Nat) (e : Byte) (n : Nat) (p : Nat → Byte) : Verdict → Prop
  | frameNotFound (hnone : ∀ k, k < bound → p k ≠ Config.marker) :
    ParsesTo bound e n p ⟨.frameNotFound, bound, bound, []⟩
  | frameMalformed {k : Nat} (hk : markerAt bound p k) (hmark : p (k + 1) ≠ Config.marker) :
    ParsesTo bound e n p ⟨.frameMalformed, k + 2, k + 1, []⟩
  | idMismatch {k : Nat} (hk : markerAt bound p k) (hmark : p (k + 1) = Config.marker)
      (hid : p (k + 2) ≠ e) (he : e ≠ Config.broadcastId) :
    ParsesTo bound e n p ⟨.idMismatch, k + 3, k + 1, [p (k + 2)]⟩
  | lengthMismatch {k : Nat} (hk : markerAt bound p k) (hmark : p (k + 1) = Config.marker)
      (hid : p (k + 2) = e ∨ e = Config.broadcastId) (hlen : (p (k + 3)).toNat ≠ n + Config.lenOverhead) :
    ParsesTo bound e n p ⟨.lengthMismatch, k + 4, k + 1, [p (k + 2), p (k + 3)]⟩
  | checksumMismatch {k : Nat} (hk : markerAt bound p k) (hmark : p (k + 1) = Config.marker)
      (hid : p (k + 2) = e ∨ e = Config.broadcastId) (hlen : (p (k + 3)).toNat = n + Config.lenOverhead)
      (hsum : p (k + 5 + n) ≠ not8 (sum8 ((List.range (n + 3)).map fun j => p (k + 2 + j)))) :
    ParsesTo bound e n p ⟨.checksumMismatch, k + 6 + n, k + 1, (List.range (n + 3)).map fun j => p (k + 2 + j)⟩
  | success {k : Nat} (hk : markerAt bound p k) (hpass : ChecksPass e n p k) :
    ParsesTo bound e n p ⟨.success, k + 6 + n, k + 1, (List.range (n + 3)).map fun j => p (k + 2 + j)⟩

theorem parsesTo_parseStatus (bound : Nat) (e : Byte) (n : Nat) (p : Nat → Byte) :
    ParsesTo bound e n p (parseStatus bound e n p) := by
  unfold parseStatus
  split
  case h_1 hnone => exact .frameNotFound (firstMarker_eq_none.1 hnone)
  case h_2 k hk =>
    have hk := firstMarker_eq_some.1 hk
    dsimp only
    split_ifs with hmark hid hlen hsum
    · exact .frameMalformed hk hmark
    · exact .idMismatch hk (not_not.1 hmark) hid.1 hid.2
    · exact .lengthMismatch hk (not_not.1 hmark) (by tauto) hlen
    · exact .checksumMismatch hk (not_not.1 hmark) (by tauto) (not_not.1 hlen) hsum
    · exact .success hk ⟨not_not.1 hmark, by tauto, not_not.1 hlen, not_not.1 hsum⟩

/-- The rules exclude one another. -/
theorem ParsesTo.parseStatus_eq {bound n : Nat} {e : Byte} {p : Nat → Byte} {v : Verdict} (h : ParsesTo bound e n p v) :
    parseStatus bound e n p = v := by
  cases h with
  | frameNotFound hnone => simp only [parseStatus, firstMarker_eq_none.2 hnone]
  | frameMalformed hk hmark => simp [parseStatus, firstMarker_eq_some.2 hk, hmark]
  | idMismatch hk hmark hid he => simp [parseStatus, firstMarker_eq_some.2 hk, hmark, hid, he]
  | @lengthMismatch k hk hmark hid hlen =>
    have hid : ¬ (p (k + 2) ≠ e ∧ e ≠ Config.broadcastId) := by tauto
    simp only [parseStatus, firstMarker_eq_some.2 hk]
    rw [if_neg (not_not.2 hmark), if_neg hid, if_pos hlen]
  | @checksumMismatch k hk hmark hid hlen hsum =>
    have hid : ¬ (p (k + 2) ≠ e ∧ e ≠ Config.broadcastId) := by tauto
    simp only [parseStatus, firstMarker_eq_some.2 hk]
    rw [if_neg (not_not.2 hmark), if_neg hid, if_neg (not_not.2 hlen)]
    exact if_pos hsum
  | success hk hpass => exact parseStatus_of_checksPass hk hpass

/-! ## The bytes polled -/

/-- The bytes of the sum are among those polled. -/
theorem summed_congr {n k : Nat} {p q : Nat → Byte} (hq : ∀ j, j < k + 6 + n → q j = p j) :
    ((List.range (n + 3)).map fun j => p (k + 2 + j)) = (List.range (n + 3)).map fun j => q (k + 2 + j) := by
  refine List.map_congr_left fun j hj => (hq _ ?_).symm
  have hj := List.mem_range.1 hj
  omega

/-- An exit asks for bytes that were polled before it, and for no other (R207). -/
theorem ParsesTo.congr {bound n : Nat} {e : Byte} {p q : Nat → Byte} {v : Verdict} (h : ParsesTo bound e n p v)
    (hq : ∀ k, k < v.polls → q k = p k) : ParsesTo bound e n q v := by
  cases h with
  | frameNotFound hnone => exact .frameNotFound fun k hk => by rw [hq k hk]; exact hnone k hk
  | frameMalformed hk hmark =>
    dsimp only at hq
    rw [← hq _ (by omega)] at hmark
    exact .frameMalformed (hk.congr fun j hj => hq j (by omega)) hmark
  | idMismatch hk hmark hid he =>
    dsimp only at hq
    rw [← hq _ (by omega)] at hmark hid ⊢
    exact .idMismatch (hk.congr fun j hj => hq j (by omega)) hmark hid he
  | lengthMismatch hk hmark hid hlen =>
    dsimp only at hq
    rw [← hq _ (by omega)] at hmark hid hlen
    rw [← hq (_ + 2) (by omega), ← hq (_ + 3) (by omega)]
    exact .lengthMismatch (hk.congr fun j hj => hq j (by omega)) hmark hid hlen
  | @checksumMismatch k hk hmark hid hlen hsum =>
    dsimp only at hq
    rw [← hq _ (by omega)] at hmark hid hlen hsum
    rw [summed_congr hq] at hsum ⊢
    exact .checksumMismatch (hk.congr fun j hj => hq j (by omega)) hmark hid hlen hsum
  | @success k hk hpass =>
    dsimp only at hq
    obtain ⟨hmark, hid, hlen, hsum⟩ := hpass
    rw [← hq _ (by omega)] at hmark hid hlen hsum
    rw [summed_congr hq] at hsum ⊢
    exact .success (hk.congr fun j hj => hq j (by omega)) ⟨hmark, hid, hlen, hsum⟩

/-- Settles O28: the exit that the first bytes lead to is reached by every reply that begins with them (`ParsesTo.congr`). -/
theorem verdictRestsOnPolledBytes : Obligations.VerdictRestsOnPolledBytes := fun bound e n p _ hq =>
  ((parsesTo_parseStatus bound e n p).congr hq).parseStatus_eq

/-! ## The results -/

/-- When each result is raised (R202 to R206; `Success`, when every check passes). -/
def RaisedWhen (bound : Nat) (e : Byte) (n : Nat) (p : Nat → Byte) : Result → Prop
  | .success => ∃ k, markerAt bound p k ∧ ChecksPass e n p k
  | .frameNotFound => ∀ k, k < bound → p k ≠ Config.marker
  | .frameMalformed => ∃ k, markerAt bound p k ∧ p (k + 1) ≠ Config.marker
  | .idMismatch => e ≠ Config.broadcastId ∧ ∃ k, markerAt bound p k ∧ p (k + 1) = Config.marker ∧ p (k + 2) ≠ e
  | .lengthMismatch => ∃ k, markerAt bound p k ∧ p (k + 1) = Config.marker ∧
      (p (k + 2) = e ∨ e = Config.broadcastId) ∧ (p (k + 3)).toNat ≠ n + Config.lenOverhead
  | .checksumMismatch => ∃ k, markerAt bound p k ∧ p (k + 1) = Config.marker ∧
      (p (k + 2) = e ∨ e = Config.broadcastId) ∧ (p (k + 3)).toNat = n + Config.lenOverhead ∧
      p (k + 5 + n) ≠ not8 (sum8 ((List.range (n + 3)).map fun j => p (k + 2 + j)))

section
variable {bound n : Nat} {e : Byte} {p : Nat → Byte}

theorem ParsesTo.raisedWhen {v : Verdict} (h : ParsesTo bound e n p v) : RaisedWhen bound e n p v.result := by
  cases h with
  | frameNotFound hnone => exact hnone
  | frameMalformed hk hmark => exact ⟨_, hk, hmark⟩
  | idMismatch hk hmark hid he => exact ⟨he, _, hk, hmark, hid⟩
  | lengthMismatch hk hmark hid hlen => exact ⟨_, hk, hmark, hid, hlen⟩
  | checksumMismatch hk hmark hid hlen hsum => exact ⟨_, hk, hmark, hid, hlen, hsum⟩
  | success hk hpass => exact ⟨_, hk, hpass⟩

theorem RaisedWhen.parsesTo {r : Result} (h : RaisedWhen bound e n p r) : ∃ v, ParsesTo bound e n p v ∧ v.result = r := by
  cases r with
  | success =>
    obtain ⟨k, hk, hpass⟩ := h
    exact ⟨_, .success hk hpass, rfl⟩
  | frameNotFound => exact ⟨_, .frameNotFound h, rfl⟩
  | frameMalformed =>
    obtain ⟨k, hk, hmark⟩ := h
    exact ⟨_, .frameMalformed hk hmark, rfl⟩
  | idMismatch =>
    obtain ⟨he, k, hk, hmark, hid⟩ := h
    exact ⟨_, .idMismatch hk hmark hid he, rfl⟩
  | lengthMismatch =>
    obtain ⟨k, hk, hmark, hid, hlen⟩ := h
    exact ⟨_, .lengthMismatch hk hmark hid hlen, rfl⟩
  | checksumMismatch =>
    obtain ⟨k, hk, hmark, hid, hlen, hsum⟩ := h
    exact ⟨_, .checksumMismatch hk hmark hid hlen hsum, rfl⟩

theorem parseStatus_result_iff {r : Result} : (parseStatus bound e n p).result = r ↔ RaisedWhen bound e n p r := by
  refine ⟨fun h => h ▸ (parsesTo_parseStatus bound e n p).raisedWhen, fun h => ?_⟩
  obtain ⟨v, hv, hr⟩ := h.parsesTo
  rw [hv.parseStatus_eq, hr]

end

/-- A call fails when it reads a reply and the reply is as the failure says (R202 to R206). -/
theorem exec_fails_iff {i : Instr} {s : State} {r : Result} (hr : r ≠ .success) (hcfg : s.cfg.legal = true)
    (ha : admissible i s = true) (hb : bufferInPlace i s = true) (hs : transportServes i s = true) :
    ∃ t, exec i s = .next t ∧
      (t.result = r ↔ readsReply i = true ∧ RaisedWhen s.cfg.scanBound (targetOf i) (replyLen i) s.pollAt r) := by
  obtain ⟨t, hrun, hreplied, hreturned⟩ := exec_runs hcfg ha hb hs
  refine ⟨t, hrun, ?_⟩
  cases hreads : readsReply i with
  | true =>
    obtain ⟨-, hresult, -⟩ := hreplied hreads
    simp [hresult, parseStatus_result_iff]
  | false =>
    obtain ⟨-, hresult, -⟩ := hreturned hreads
    simp [hresult, Ne.symm hr]

/-- Settles O22 (`exec_fails_iff`). -/
theorem frameNotFoundExactly : Obligations.FrameNotFoundExactly := fun _ _ hcfg ha hb hs =>
  exec_fails_iff (r := .frameNotFound) (by decide) hcfg ha hb hs

/-- Settles O23 (`exec_fails_iff`). -/
theorem frameMalformedExactly : Obligations.FrameMalformedExactly := fun _ _ hcfg ha hb hs =>
  exec_fails_iff (r := .frameMalformed) (by decide) hcfg ha hb hs

/-- Settles O24 (`exec_fails_iff`). -/
theorem idMismatchExactly : Obligations.IdMismatchExactly := fun _ _ hcfg ha hb hs =>
  exec_fails_iff (r := .idMismatch) (by decide) hcfg ha hb hs

/-- Settles O25 (`exec_fails_iff`). -/
theorem lengthMismatchExactly : Obligations.LengthMismatchExactly := fun _ _ hcfg ha hb hs =>
  exec_fails_iff (r := .lengthMismatch) (by decide) hcfg ha hb hs

/-- Settles O26 (`exec_fails_iff`). -/
theorem checksumMismatchExactly : Obligations.ChecksumMismatchExactly := fun _ _ hcfg ha hb hs =>
  exec_fails_iff (r := .checksumMismatch) (by decide) hcfg ha hb hs

end Sys2Proof.Machine
end

section
/-!
The exit of a call that reads a reply (spec/60_exceptions.md R209): its polls and what it leaves in the registers.
-/
namespace Sys2Proof.Machine

/-! ## The polls on the trace -/

/-- The polls of a call are those the verdict counts (R209). -/
theorem RepliedWith.polledBytes_length {packet : List Byte} {v : Verdict} {s t : State} (h : RepliedWith packet v s t) :
    (polledBytes t.trace).length = v.polls := by
  obtain ⟨-, -, -, htrace, -⟩ := h
  simp [htrace, polledBytes, List.filterMap_map]

/-! ## The registers -/

/-- SCAN_CNT, ERR_STAGE and ACC at the exit with verdict `v` of a call that left the sum `sent` in ACC when its packet was sent
(R209). -/
def ExitRegisters (sent : Byte) (v : Verdict) (s t : State) : Prop :=
  t.scanCnt = v.scanned ∧ t.errStage = v.summed.getD 2 s.errStage ∧ t.acc = if v.summed = [] then sent else sum8 v.summed

theorem State.exitWith_registers (v : Verdict) (s : State) : ExitRegisters s.acc v s (s.exitWith v) := by
  unfold State.exitWith
  split
  · exact ⟨rfl, rfl, rfl⟩
  · exact ⟨rfl, rfl, rfl⟩

/-- A call that reads a reply leaves its registers as the parser's verdict says. -/
theorem exec_exits {i : Instr} {op : Op} {s : State} (hcfg : s.cfg.legal = true) (ha : admissible i s = true)
    (hb : bufferInPlace i s = true) (hs : transportServes i s = true) (hop : operationOf i = some op)
    (hreads : readsReply i = true) : ∃ t, exec i s = .next t ∧
      RepliedWith (packetOf s.cfg i) (parseStatus s.cfg.scanBound (targetOf i) (replyLen i) s.pollAt) s t ∧
      ExitRegisters (sum8 (targetOf i :: lengthByte (paramsOf i).length :: s.cfg.code op :: paramsOf i))
        (parseStatus s.cfg.scanBound (targetOf i) (replyLen i) s.pollAt) s t := by
  obtain ⟨hcmd, -⟩ := admissible_iff.1 ha
  obtain ⟨t, hrun, hreplied, -⟩ := exec_runs hcfg ha hb hs
  refine ⟨t, hrun, hreplied hreads, ?_⟩
  have hdone : t = (s.acceptedAs i).callDone (paramsOf i) :=
    Host.Outcome.next.inj (hrun.symm.trans (exec_eq_callDone hcfg ha hb hs))
  have hreply := readsReply_acceptedAs hcmd s ▸ hreads
  rw [hdone, State.callDone, if_pos hreply]
  cases i with
  | status | action => simp [readsReply, operationOf, replyExpected] at hreads
  | ping | read | write | regWrite | reset =>
    cases hop
    exact State.exitWith_registers _ _

/-! ## The exits -/

/-- Where the scan finds its marker, the result says how many bytes were polled and which were summed (R142). -/
theorem ParsesTo.of_marker {bound n k : Nat} {e : Byte} {p : Nat → Byte} {v : Verdict} (h : ParsesTo bound e n p v)
    (hk : markerAt bound p k) : v.scanned = k + 1 ∧
      (v.result = .frameMalformed → v.polls = k + 2 ∧ v.summed = []) ∧
      (v.result = .idMismatch → v.polls = k + 3 ∧ v.summed = [p (k + 2)]) ∧
      (v.result = .lengthMismatch → v.polls = k + 4 ∧ v.summed = [p (k + 2), p (k + 3)]) ∧
      (v.result = .checksumMismatch ∨ v.result = .success →
        v.polls = k + 6 + n ∧ v.summed = (List.range (n + 3)).map fun j => p (k + 2 + j)) := by
  cases h with
  | frameNotFound hnone =>
    obtain ⟨hlt, -, hmark⟩ := hk
    exact absurd hmark (hnone k hlt)
  | frameMalformed hj | idMismatch hj | lengthMismatch hj | checksumMismatch hj | success hj =>
    cases hj.unique hk
    simp

/-- Settles O30: the registers and polls are the verdict's (`exec_exits`), which the result fixes behind the marker
(`ParsesTo.of_marker`). -/
theorem exitStates : Obligations.ExitStates := by
  intro i op s k hcfg ha hb hs hop hreads hk
  obtain ⟨t, hrun, hreplied, hscan, herr, hacc⟩ := exec_exits hcfg ha hb hs hop hreads
  obtain ⟨hscanned, hmalformed, hid, hlen, hbody⟩ := (parsesTo_parseStatus _ (targetOf i) (replyLen i) _).of_marker hk
  have hpolls := hreplied.polledBytes_length
  obtain ⟨-, hresult, hdir, -⟩ := hreplied
  refine ⟨t, hrun, hdir, hscan.trans hscanned, ?_⟩
  rw [hpolls, herr, hacc, hresult]
  refine ⟨fun h => ?_, fun h => ?_, fun h => ?_, fun h => ?_⟩
  · obtain ⟨hpolled, hsummed⟩ := hmalformed h
    simp [hpolled, hsummed]
  · obtain ⟨hpolled, hsummed⟩ := hid h
    simp [hpolled, hsummed, sum8]
  · obtain ⟨hpolled, hsummed⟩ := hlen h
    simp [hpolled, hsummed, sum8]
  · obtain ⟨hpolled, hsummed⟩ := hbody h
    simp [hpolled, hsummed]

/-- Settles O31: the verdict is the rule `ParsesTo.frameNotFound`, its registers those of `exec_exits`. -/
theorem frameNotFoundExit : Obligations.FrameNotFoundExit := by
  intro i op s hcfg ha hb hs hop hreads hnone
  obtain ⟨t, hrun, hreplied, hregisters⟩ := exec_exits hcfg ha hb hs hop hreads
  rw [(ParsesTo.frameNotFound hnone).parseStatus_eq] at hreplied hregisters
  have hpolls := hreplied.polledBytes_length
  obtain ⟨hphase, hresult, hdir, -, -, -, hdev⟩ := hreplied
  obtain ⟨hscan, herr, hacc⟩ := hregisters
  exact ⟨t, hrun, hphase, hresult, hdir, hpolls, hscan, herr, hdev (by simp), hacc⟩

end Sys2Proof.Machine
end

section
/-!
Hazards (spec/70_reset_and_hazards.md): a status packet where no call is under way (R239), the bound on the polls of a reply (R241), and a
reply that lost a byte (R244).
-/
namespace Sys2Proof.Machine

/-! ## No call under way -/

/-- An idle block goes nowhere (R27). -/
theorem proceed_of_idle {s : State} (h : s.phase = .idle) : proceed s = s := by
  have hwatch : s.watched = s := State.watched_of_reader (by simp [h, Phase.writes])
  exact proceed_of_movesTo (k := 0) hwatch (by simp only [tick, h]) s.ticks_pos

/-- Settles O20: the packet reaches the receiver (`exec_status`) of a block that goes nowhere (`proceed_of_idle`). -/
theorem statusUnreadWhenIdle : Obligations.StatusUnreadWhenIdle := fun id len err params chk s h =>
  (exec_status id len err params chk s).trans (congrArg _ (proceed_of_idle (s := s.receive _) h))

/-! ## The polls of a reply -/

/-- READSTATUS makes the polls its verdict counts (R142). -/
theorem State.replyRead_polledBytes_length (r : State) : (polledBytes r.replyRead.trace).length =
    (polledBytes r.trace).length + (parseStatus r.cfg.scanBound r.lId r.expLen r.pollAt).polls := by
  let v := parseStatus r.cfg.scanBound r.lId r.expLen r.pollAt
  obtain ⟨-, -, -, htrace, -⟩ := (r.heard v.polls).exitWith_frame v
  have htrace : r.replyRead.trace = r.trace ++ (List.range v.polls).map fun j => Event.rx (r.pollAt j) := htrace
  simp [htrace, polledBytes, List.filterMap_map, v]

/-- The line is switched to receive and the marker scan begins (R133). -/
theorem tick_of_rDir {s : State} (hp : s.phase = .rDir) : tick s = .moves ((s.setDir .receive).scanning 0) := by
  simp only [tick, hp, State.scanning, State.hearing, State.heard_zero]
  rfl

/-- From the switch to receive READSTATUS runs to the return of the call (R130, R133). -/
theorem proceed_of_rDir {s : State} (h : ControlInv s) (hp : s.phase = .rDir) :
    proceed s = (s.setDir .receive).replyRead := by
  obtain ⟨hreads, -⟩ := h.readerInv
  obtain ⟨hlegal, -, -, hlatches, -⟩ := h
  obtain ⟨-, -, hreply⟩ := hlatches (by simp [hp])
  obtain ⟨-, hfit⟩ := hreply (hreads (by simp [hp, Phase.reads]))
  have hwatch : s.watched = s := State.watched_of_reader (by simp [hp, Phase.writes])
  have hturn : movesTo 1 s.watched ((s.setDir .receive).scanning 0) := by
    rw [hwatch]
    exact movesTo_one (tick_of_rDir hp)
  exact proceed_eq_replyRead (by decide) hturn rfl hlegal hfit

/-- Settles O48: the step reads the reply (`proceed_of_rDir`), whose polls are bounded (`parseStatus_polls_le`). -/
theorem pollsAreBounded : Obligations.PollsAreBounded := by
  intro s h hr hpres hp
  let r := s.setDir .receive
  obtain ⟨hphase, -⟩ := State.exitWith_frame (parseStatus r.cfg.scanBound r.lId r.expLen r.pollAt) (r.heard _)
  have hpolls := r.replyRead_polledBytes_length
  have hbound := parseStatus_polls_le r.cfg.scanBound r.lId r.expLen r.pollAt
  have hbefore : polledBytes r.trace = polledBytes s.trace := by simp [r, State.setDir]
  have hscan : r.cfg.scanBound = s.cfg.scanBound := rfl
  have hexp : r.expLen = s.expLen := rfl
  rw [hbefore] at hpolls
  refine ⟨r.replyRead, ?_, hphase, by omega⟩
  rw [(stepRunsFetchedCall (.ping 0) s hr).2 hpres, proceed_of_rDir h hp]

/-! ## A reply that lost a byte -/

/-- Putting the lost byte back in its place and taking the last one away changes the sum by their difference. -/
theorem sum8_lost_byte (front back : List Byte) (lost chk x : Byte) :
    sum8 (front ++ back ++ [chk, x]) + lost = sum8 (front ++ lost :: back ++ [chk]) + x := by
  simp only [sum8_append, sum8]
  ac_rfl

/-- Behind the checksum of the whole packet only the lost byte completes the sum to FF (R85, R244). -/
theorem sum8_lost_byte_eq_iff (front back : List Byte) (lost x : Byte) :
    sum8 (front ++ back ++ [checksum (front ++ lost :: back), x]) = 0xFF ↔ x = lost := by
  have hlost := sum8_lost_byte front back lost (checksum (front ++ lost :: back)) x
  rw [checksumComplement] at hlost
  rw [← BitVec.add_left_inj lost, hlost, BitVec.add_right_inj]

/-- Where the polls return the bytes of a list, each byte of it is a poll's. -/
theorem getElem?_eq_poll {bytes : List Byte} {p : Nat → Byte} (h : ∀ k b, bytes[k]? = some b → p k = b) (k : Nat)
    (hk : k < bytes.length) : bytes[k]? = some (p k) := by
  rw [List.getElem?_eq_getElem hk, h k _ (List.getElem?_eq_getElem hk)]

/-- Settles O29: the header passes its checks, so the sum of the bytes polled behind the markers decides
(`parseStatus_result_of_header`), and it is FF just when the last byte is the lost one (`sum8_lost_byte_eq_iff`). -/
theorem lostByteFalseAcceptance : Obligations.LostByteFalseAcceptance := by
  intro bound id err x lost front back p hb hn hpoll
  let body := id :: lengthByte (front.length + 1 + back.length) :: err :: front
  have hmark : markerAt bound p 0 := ⟨hb, fun j hj => absurd hj j.not_lt_zero, hpoll 0 _ rfl⟩
  have hlen : (p 3).toNat = front.length + 1 + back.length + Config.lenOverhead := by
    rw [hpoll 3 _ rfl, Laws.Wire.lengthByte_toNat hn]
  have hbytes : (List.range (front.length + 1 + back.length + 4)).map (fun j => p (0 + 2 + j)) =
      body ++ back ++ [checksum (body ++ lost :: back), x] :=
    map_polls_eq (before := [Config.marker, Config.marker]) (after := []) (by simp [header_eq, body])
      (by simp [body]; omega) (getElem?_eq_poll hpoll)
  rw [parseStatus_result_of_header hmark (hpoll 1 _ rfl) (.inl (hpoll 2 _ rfl)) hlen, hbytes]
  exact if_congr (sum8_lost_byte_eq_iff body back lost x) rfl rfl

end Sys2Proof.Machine
end
